-- ==== Sys2Proof/Word.lean ====
section
/-! DEFINITION. The word types of RG10-CBS: 00_scope.md R6 and R8 (every value is an unsigned integer of a stated width). -/

namespace Sys2Proof

/-- A register byte of the sensor, a byte of PIX_OUT, an 8-bit field. -/
abbrev Byte := BitVec 8

/-- A command word or the value of one CSR: 32 bits (R20, R80). -/
abbrev Word := BitVec 32

/-- A sensor register address: REG_ADDR_BITS = 16 bits (R6, conflict C3). -/
abbrev RegAddr := BitVec 16

/-- A raw 16-bit value as a CSR field holds it, not yet checked against 1023 (R29). -/
abbrev Raw16 := BitVec 16

/-- Sample10: an integer in [0, 1023] (R12). -/
abbrev Sample10 := BitVec 10

/-- A coordinate field of a command word: COORD_BITS = 12 bits (R6, R82). -/
abbrev Coord12 := BitVec 12

end Sys2Proof
end

