-- ==== Sys2Proof/Config.lean ====
section
/-! DEFINITION. What one RG10-CBS instance fixes (00_scope.md R6), the register map (42_sequencer.md R140), and the free
values: the bus's outcomes and the external source's values, which no rule constrains (R147, R125). -/

namespace Sys2Proof

/-- The parameters of an instance (R6). Those that fix a field's width (COORD_BITS, REG_ADDR_BITS) stand in Word.lean's types,
CODEC_SCALE is fixed at 1 (R109), and BUS_INDEX is `Config.busIndex`. -/
structure Params where
  /-- WL_DEPTH, 5 to 32. -/
  wlDepth : Nat
  /-- LOG_DEPTH, 1 to 65535. -/
  logDepth : Nat
  /-- MAX_DIM, the largest frame width or height. -/
  maxDim : Nat
  /-- RESET_SETTLE_MS. -/
  resetSettleMs : BitVec 16
  /-- RESET_DEVADDR. -/
  resetDevAddr : BitVec 7
  deriving DecidableEq, Repr

/-- The spec's instance: each parameter at the value or the default of R6's table. -/
def Params.spec : Params where
  wlDepth := 8
  logDepth := 64
  maxDim := 4096
  resetSettleMs := 100
  resetDevAddr := 0x10

/-- The outcome of one BusWrite (R147): OK, or FAIL(t) with t in 1..15. `fail k` is FAIL(k + 1), so that every term is an
outcome the bus may give. -/
inductive BusOutcome where
  | ok
  | fail (k : Fin 15)
  deriving DecidableEq, Repr, Inhabited

/-- The five names of the register map (R140). -/
inductive MapName where
  | testPatternEnable
  | red
  | green1
  | green2
  | blue
  deriving DecidableEq, Repr

/-- A RegisterPair of the register map: two addresses, which the map's check ties together (R12, R141). -/
structure RegisterPair where
  name : MapName
  lsb : RegAddr
  msb : RegAddr
  deriving DecidableEq, Repr

/-- The register map table, a constant in the source's order (R140; log 11). -/
def Config.registerMap : List RegisterPair :=
  [⟨.testPatternEnable, 0x0600, 0x0601⟩,
   ⟨.red, 0x0602, 0x0603⟩,
   ⟨.green1, 0x0604, 0x0605⟩,
   ⟨.green2, 0x0606, 0x0607⟩,
   ⟨.blue, 0x0608, 0x0609⟩]

/-- Free value: the bus's answer to the BusWrite made when `n` writes stand in the bus history and no known answer waits.
R147: "Its outcome is a free draw" (log 4). -/
opaque Config.freeBusOutcome : Nat → BusOutcome

/-- Free value: what the external source answers to (x, y, ch) while it serves the command accepted as number `n`, where no
known answer is listed. R125: one fixed function within a command, any function (log 5). -/
opaque Config.freePixel (n : Nat) (x y : BitVec 16) (ch : BitVec 2) : Raw16

/-- BUS_INDEX, OPEN (R6, D34): which platform bus the block drives. No rule computes with it (log 17). -/
opaque Config.busIndex : Nat

/-- CSR_BASE, OPEN (R68, D2): where the CSR window stands in the host's address space. No rule computes with it (log 17). -/
opaque Config.csrBase : Nat

end Sys2Proof
end

