-- ==== Sys2Proof/Syntax.lean ====
section
/-! DEFINITION. The ten commands of RG10-CBS (30_encoding.md R83), one constructor for each row of the opcode table, with
the operand fields of its format (R81, R82) at the fields' own widths. -/

namespace Sys2Proof

/-- A command, as R83 lists them. An operand has the width of its field, so every term is a command that can be encoded. -/
inductive Instr where
  /-- NOP, format N (R170). -/
  | nop
  /-- LOG_CLEAR, format N (R171). -/
  | logClear
  /-- PACK, format I16: the value IMM16 (R101). -/
  | pack (value : Raw16)
  /-- UNPACK, format BB: B0 is the lsb byte, B1 the msb byte (R103). -/
  | unpack (lsb msb : Byte)
  /-- RESCALE, format I8: the 8-bit value B0 (R105). -/
  | rescale (v8 : Byte)
  /-- ROUTE, format XY (R121). -/
  | route (x y : Coord12)
  /-- PIXEL, format XY (R126). -/
  | pixel (x y : Coord12)
  /-- STREAM, format N (R129). -/
  | stream
  /-- SEQ_LIST, format N (R153). -/
  | seqList
  /-- SEQ_TP, format N (R156). -/
  | seqTp
  deriving DecidableEq, Repr

end Sys2Proof
end

