-- ==== Sys2Proof/WellFormed.lean ====
section
/-! DEFINITION. The checks made before anything runs: of an instance's parameters (00_scope.md R7), of the register map
(42_sequencer.md R141) and of a line of assembly, whose operands are plain numbers (30_encoding.md R87). A term of Instr
needs no check: its operands have the widths of their fields. -/

namespace Sys2Proof

/-- R6, R7: the instance is valid. MAX_DIM and the two reset parameters have one value in R6's table. -/
def Params.wf (p : Params) : Bool :=
  decide (5 ≤ p.wlDepth) && decide (p.wlDepth ≤ 32) && decide (1 ≤ p.logDepth) && decide (p.logDepth ≤ 65535) &&
    p.maxDim == 4096 && p.resetSettleMs == 100 && p.resetDevAddr == 0x10

/-- R141: "address_msb = address_lsb + 1 for every entry", as numbers, so that no address_lsb is 0xFFFF. -/
def RegisterPair.wf (r : RegisterPair) : Bool :=
  r.msb.toNat == r.lsb.toNat + 1

/-- R141: the check of the whole table, made when the model is built and never in a step. -/
def registerMapWf (table : List RegisterPair) : Bool :=
  table.all RegisterPair.wf

/-- A line of assembly (R87): a mnemonic and its operands as the numbers written. -/
inductive Asm where
  | nop
  | logClear
  | pack (value : Nat)
  | unpack (lsb msb : Nat)
  | rescale (v8 : Nat)
  | route (x y : Nat)
  | pixel (x y : Nat)
  | stream
  | seqList
  | seqTp
  deriving DecidableEq, Repr

/-- R87: "An operand outside its field's range is an assembly error." -/
def Asm.wf : Asm → Bool
  | .nop => true
  | .logClear => true
  | .pack value => decide (value ≤ 0xFFFF)
  | .unpack lsb msb => decide (lsb ≤ 0xFF) && decide (msb ≤ 0xFF)
  | .rescale v8 => decide (v8 ≤ 255)
  | .route x y => decide (x ≤ 4095) && decide (y ≤ 4095)
  | .pixel x y => decide (x ≤ 4095) && decide (y ≤ 4095)
  | .stream => true
  | .seqList => true
  | .seqTp => true

end Sys2Proof
end

