-- ==== Sys2Proof/Decode.lean ====
section
/-! DEFINITION. Decoding and encoding of command words (30_encoding.md R80 to R87): fields are cut out here, once. Decoding
is total: every 32-bit word is a command or is rejected by name (R80, R85). -/

namespace Sys2Proof

/-- Why a word is illegal (R85). -/
inductive Illegal where
  /-- The opcode is in no row of R83. -/
  | opcode
  /-- The opcode is assigned, but a reserved bit of its format (R81) is not 0. -/
  | reservedBits
  deriving DecidableEq, Repr

/-- R80: the opcode is cw[7:0]. -/
def opcodeOf (cw : Word) : Byte := cw.extractLsb' 0 8

/-- Format N (R81): bits 31:8 are reserved. -/
def decodeN (cw : Word) (i : Instr) : Except Illegal Instr :=
  if cw.extractLsb' 8 24 = 0#24 then .ok i else .error .reservedBits

/-- Format I16 (R81): IMM16 = cw[31:16], and bits 15:8 are reserved. -/
def decodeI16 (cw : Word) (f : Raw16 → Instr) : Except Illegal Instr :=
  if cw.extractLsb' 8 8 = 0#8 then .ok (f (cw.extractLsb' 16 16)) else .error .reservedBits

/-- Format BB (R81): B0 = cw[23:16], B1 = cw[31:24], and bits 15:8 are reserved. -/
def decodeBB (cw : Word) (f : Byte → Byte → Instr) : Except Illegal Instr :=
  if cw.extractLsb' 8 8 = 0#8 then .ok (f (cw.extractLsb' 16 8) (cw.extractLsb' 24 8)) else .error .reservedBits

/-- Format I8 (R81): B0 = cw[23:16], and bits 15:8 and 31:24 are reserved. -/
def decodeI8 (cw : Word) (f : Byte → Instr) : Except Illegal Instr :=
  if cw.extractLsb' 8 8 = 0#8 ∧ cw.extractLsb' 24 8 = 0#8 then .ok (f (cw.extractLsb' 16 8)) else .error .reservedBits

/-- Format XY (R81): X = cw[19:8], Y = cw[31:20], and no bit is reserved. -/
def decodeXY (cw : Word) (f : Coord12 → Coord12 → Instr) : Except Illegal Instr :=
  .ok (f (cw.extractLsb' 8 12) (cw.extractLsb' 20 12))

/-- R84: the decoding of a command word. -/
def decode (cw : Word) : Except Illegal Instr :=
  if opcodeOf cw = 0x00#8 then decodeN cw .nop
  else if opcodeOf cw = 0x01#8 then decodeN cw .logClear
  else if opcodeOf cw = 0x10#8 then decodeI16 cw .pack
  else if opcodeOf cw = 0x11#8 then decodeBB cw .unpack
  else if opcodeOf cw = 0x12#8 then decodeI8 cw .rescale
  else if opcodeOf cw = 0x20#8 then decodeXY cw .route
  else if opcodeOf cw = 0x21#8 then decodeXY cw .pixel
  else if opcodeOf cw = 0x22#8 then decodeN cw .stream
  else if opcodeOf cw = 0x30#8 then decodeN cw .seqList
  else if opcodeOf cw = 0x31#8 then decodeN cw .seqTp
  else .error .opcode

/-- The opcode of a command (R83). -/
def Instr.opcode : Instr → Byte
  | .nop => 0x00
  | .logClear => 0x01
  | .pack _ => 0x10
  | .unpack _ _ => 0x11
  | .rescale _ => 0x12
  | .route _ _ => 0x20
  | .pixel _ _ => 0x21
  | .stream => 0x22
  | .seqList => 0x30
  | .seqTp => 0x31

/-- The command word of a command, from the formats' tables (R81): the fields with the high bits first. -/
def encode : Instr → Word
  | .nop => 0#24 ++ 0x00#8
  | .logClear => 0#24 ++ 0x01#8
  | .pack value => value ++ 0#8 ++ 0x10#8
  | .unpack lsb msb => msb ++ lsb ++ 0#8 ++ 0x11#8
  | .rescale v8 => 0#8 ++ v8 ++ 0#8 ++ 0x12#8
  | .route x y => y ++ x ++ 0x20#8
  | .pixel x y => y ++ x ++ 0x21#8
  | .stream => 0#24 ++ 0x22#8
  | .seqList => 0#24 ++ 0x30#8
  | .seqTp => 0#24 ++ 0x31#8

/-- The command this decoder reads from the word whose bits are `w`, of which the table gives `nbits`; `none` where it is illegal. -/
def decodeTableWord (nbits w : Nat) : Option Instr :=
  match decode (BitVec.ofNat 32 (w % 2 ^ nbits)) with
  | .ok i => some i
  | .error _ => none

/-- R87: a line of assembly becomes a command; `none` is an assembly error, and no operand is ever truncated. -/
def Asm.assemble (a : Asm) : Option Instr :=
  if a.wf then
    match a with
    | .nop => some .nop
    | .logClear => some .logClear
    | .pack value => some (.pack (BitVec.ofNat 16 value))
    | .unpack lsb msb => some (.unpack (BitVec.ofNat 8 lsb) (BitVec.ofNat 8 msb))
    | .rescale v8 => some (.rescale (BitVec.ofNat 8 v8))
    | .route x y => some (.route (BitVec.ofNat 12 x) (BitVec.ofNat 12 y))
    | .pixel x y => some (.pixel (BitVec.ofNat 12 x) (BitVec.ofNat 12 y))
    | .stream => some .stream
    | .seqList => some .seqList
    | .seqTp => some .seqTp
  else none

end Sys2Proof
end

