-- ==== Sys2Proof/Machine/State.lean ====
section
/-! DEFINITION. The state of RG10-CBS (10_state.md), as plain data, with what the outside agents have ready for it, the
reasons a step can stop, and the state after reset (R51). -/

namespace Sys2Proof.Machine

/-- A colour channel (R11). -/
inductive Channel where
  | r
  | g
  | b
  deriving DecidableEq, Repr

/-- The cause codes of a completion (R180). Codes 7 to 15 are never written, so they are no constructors (U10). -/
inductive Cause where
  | ok
  | validationRange
  | validationDim
  | validationPair
  | validationLen
  | busError
  | illegalCmd
  deriving DecidableEq, Repr

/-- ERRINFO (R27). -/
structure ErrInfo where
  addr : RegAddr
  transport : BitVec 4
  index : Byte
  deriving DecidableEq, Repr

/-- DOUT (R28). -/
structure Dout where
  site : BitVec 2
  ch : BitVec 2
  sample : Sample10
  msb : Byte
  lsb : Byte
  deriving DecidableEq, Repr

/-- A write-list entry (R44), and an entry of a transaction's list (R142): address_lsb and the raw value. -/
structure TxEntry where
  addr : RegAddr
  value : Raw16
  deriving DecidableEq, Repr

/-- A transaction-log entry (R41): register address, byte value, outcome. -/
structure LogEntry where
  addr : RegAddr
  value : Byte
  outcome : BusOutcome
  deriving DecidableEq, Repr

/-- A record of the bus history (R147). -/
structure BusRecord where
  dev : BitVec 7
  reg : RegAddr
  byte : Byte
  outcome : BusOutcome
  deriving DecidableEq, Repr

/-- One known answer of the external pixel source (R125). -/
structure ExtSample where
  x : BitVec 16
  y : BitVec 16
  ch : Channel
  value : Raw16
  deriving DecidableEq, Repr

/-- The source function one command uses (R49, R125), as plain data: the known answers, and the index of the free function
that answers every request not listed (log 5). -/
structure ExtSource where
  table : List ExtSample
  draw : Nat
  deriving DecidableEq, Repr

/-- The host-writable operand registers: exactly those a command's acceptance copies (R48). -/
structure OperandRegs where
  /-- CTRL.SRC (R23). -/
  src : BitVec 1
  /-- CH_R (R29). -/
  chR : Raw16
  /-- CH_G (R29). -/
  chG : Raw16
  /-- CH_B (R29). -/
  chB : Raw16
  /-- TPE_VALUE (R30). -/
  tpeValue : Raw16
  /-- FRAME_DIM.W (R31). -/
  frameW : BitVec 16
  /-- FRAME_DIM.H (R31). -/
  frameH : BitVec 16
  /-- ROW_RANGE.Y0 (R32). -/
  rowY0 : BitVec 16
  /-- ROW_RANGE.Y1 (R32). -/
  rowY1 : BitVec 16
  /-- SETTLE_MS (R35). -/
  settleMs : BitVec 16
  /-- DEVADDR (R36). -/
  devAddr : BitVec 7
  /-- WL_LEN (R37). -/
  wlLen : Byte
  /-- WL[0] to WL[WL_DEPTH-1] (R44). -/
  wl : List TxEntry
  deriving DecidableEq, Repr

/-- Which byte of a pair a SeqWrite step writes (R47). -/
inductive Half where
  | lo
  | hi
  deriving DecidableEq, Repr

/-- The engine's phase (R47), the block's position `pos` (R9). -/
inductive Phase where
  | start
  | seqWrite (i : Nat) (half : Half)
  | seqSettle (i : Nat)
  | streamEmit (x y : Nat)
  deriving DecidableEq, Repr

/-- The engine state (R47): Idle, or Busy with the accepted word, the snapshot, the source function and the phase. -/
inductive Engine where
  | idle
  | busy (cw : Word) (snap : OperandRegs) (ext : ExtSource) (ph : Phase)
  deriving DecidableEq, Repr

/-- One coming turn of an agent (R13, R191; log 2). -/
inductive Turn where
  /-- The engine takes a step. -/
  | engine
  /-- The host reads `width` bytes at `off` (R64). -/
  | read (width off : Nat)
  /-- The host writes `v`, `width` bytes wide, at `off` (R64). -/
  | write (width off : Nat) (v : Word)
  /-- The host reads STATUS, and does so again until BUSY = 0 (R88; log 21). -/
  | poll
  /-- The external source changes what it answers to the commands accepted from now on (R125). -/
  | source (table : List ExtSample)
  /-- Reset is asserted (R210). -/
  | reset
  deriving DecidableEq, Repr

/-- The state of the machine. The last six fields are the model's own: the outside agents' side of a run. -/
structure State where
  /-- The instance's parameters, which PARAM shows (R42); no step changes them. -/
  params : Params
  /-- The operand CSRs (R23, R29 to R32, R35 to R37, R44). -/
  regs : OperandRegs
  /-- LOG_SEL (R39). -/
  logSel : BitVec 16
  /-- STATUS.REJ (R24). -/
  rej : Bool
  /-- STATUS.LOG_OVF (R24). -/
  logOvf : Bool
  /-- STATUS.CAUSE (R24). -/
  cause : Cause
  /-- STATUS.LAST_OP (R24). -/
  lastOp : Byte
  /-- STATUS.DONE_CNT (R24). -/
  doneCnt : Byte
  /-- ERRINFO (R27). -/
  errInfo : ErrInfo
  /-- DOUT (R28). -/
  dout : Dout
  /-- POS.X (R33). -/
  posX : BitVec 16
  /-- POS.Y (R33). -/
  posY : BitVec 16
  /-- PIX_COUNT (R34). -/
  pixCount : BitVec 32
  /-- The transaction log, oldest first; its length is LOG_COUNT (R38, R46; log 10). -/
  log : List LogEntry
  /-- The engine (R47). -/
  engine : Engine
  /-- The bus history, oldest first (R147). -/
  busHistory : List BusRecord
  /-- The bytes appended to PIX_OUT, oldest first (R61). -/
  pixOut : List Byte
  /-- The coming turns, oldest first; when none is left every turn is the engine's (log 2). -/
  script : List Turn
  /-- The bus's coming answers, oldest first; when none is left an answer is a free value (log 4). -/
  busAnswers : List BusOutcome
  /-- What the external source answers now, where that is known (log 5). -/
  extTable : List ExtSample
  /-- How many commands have been accepted: the index of the next free pixel function (log 5). -/
  accepted : Nat
  /-- The values the host's reads have returned, oldest first (log 16). -/
  hostReads : List Word
  /-- The settle delays waited so far, in milliseconds: a lower bound on the time elapsed (log 8). -/
  waitedMs : Nat
  deriving DecidableEq, Repr

/-- Why the machine stops with a fault. No state that a run reaches raises one. -/
inductive Fault where
  /-- Raised by a meaning whose command has no rule for the engine's phase, and by a SeqWrite or SeqSettle whose index is not
  below the list's length (R47). Safe: no run reaches such a state. -/
  | noRule
  /-- Raised where a value above 1023 stands at a `pack` whose rule says validation has excluded it (R100, R145, R128). Safe:
  no run reaches such a state. -/
  | packUndefined
  deriving DecidableEq, Repr

/-- Why a step is refused. -/
inductive Refusal where
  /-- Raised by exec's arm of an instruction that has no meaning yet. Safe. -/
  | notModelled (mnemonic : String)
  /-- Raised by a host access that is not 4 bytes wide, not aligned, or at 0x100 or above: R64, "The model refuses it rather
  than guessing a value" (U6). Safe. -/
  | hostAccess
  deriving DecidableEq, Repr

/-- The operand CSRs at their reset values (R20, R51), the two parameters of R6 among them. -/
def OperandRegs.reset (p : Params) : OperandRegs where
  src := 0
  chR := 0
  chG := 0
  chB := 0
  tpeValue := 1
  frameW := 0
  frameH := 0
  rowY0 := 0
  rowY1 := 0
  settleMs := p.resetSettleMs
  devAddr := p.resetDevAddr
  wlLen := 0
  wl := List.replicate p.wlDepth ⟨0, 0⟩

/-- The state after reset of the spec's instance (R51), nothing written to the bus or the stream, and no agent with anything
ready (log 3, log 25). -/
def State.reset : State where
  params := Params.spec
  regs := OperandRegs.reset Params.spec
  logSel := 0
  rej := false
  logOvf := false
  cause := .ok
  lastOp := 0
  doneCnt := 0
  errInfo := ⟨0, 0, 0⟩
  dout := ⟨0, 0, 0, 0, 0⟩
  posX := 0
  posY := 0
  pixCount := 0
  log := []
  engine := .idle
  busHistory := []
  pixOut := []
  script := []
  busAnswers := []
  extTable := []
  accepted := 0
  hostReads := []
  waitedMs := 0

end Sys2Proof.Machine
end

