-- ==== Sys2Proof/Machine/Flags.lean ====
section
/-! DEFINITION. Codes and status bits: cause codes (60_exceptions.md R180), transport codes (42_sequencer.md R147), channel
codes (00_scope.md R11), and the STATUS bits that are read off the engine (10_state.md R24, R47). The block has no arithmetic
flags (R50). -/

namespace Sys2Proof.Machine

/-- R11: R = 0, G = 1, B = 2. -/
def Channel.code : Channel → BitVec 2
  | .r => 0
  | .g => 1
  | .b => 2

/-- R180: the cause codes. -/
def Cause.code : Cause → BitVec 4
  | .ok => 0
  | .validationRange => 1
  | .validationDim => 2
  | .validationPair => 3
  | .validationLen => 4
  | .busError => 5
  | .illegalCmd => 6

/-- R41, R147: the 4-bit transport code of an outcome; FAIL(t) has t in 1..15, and 0 stands for OK. -/
def transportCode : BusOutcome → BitVec 4
  | .ok => 0
  | .fail k => BitVec.ofNat 4 (k.val + 1)

/-- R41: the FAIL bit of an outcome. -/
def failBit : BusOutcome → Bool
  | .ok => false
  | .fail _ => true

/-- R47: BUSY = 1 iff the engine is Busy. -/
def Engine.isBusy : Engine → Bool
  | .idle => false
  | .busy _ _ _ _ => true

/-- R47: BUS_OWNED = 1 iff the phase is SeqWrite or SeqSettle. -/
def Engine.ownsBus : Engine → Bool
  | .busy _ _ _ (.seqWrite _ _) => true
  | .busy _ _ _ (.seqSettle _) => true
  | _ => false

/-- R47: STREAM_ACTIVE = 1 iff the phase is StreamEmit. -/
def Engine.isStreaming : Engine → Bool
  | .busy _ _ _ (.streamEmit _ _) => true
  | _ => false

/-- R38: LOG_COUNT, the number of entries the log holds (log 10). -/
def logCount (s : State) : BitVec 16 := BitVec.ofNat 16 s.log.length

end Sys2Proof.Machine
end

