-- ==== Sys2Proof/Machine/Operands.lean ====
section
/-! DEFINITION. What the commands read and compute with: the codec functions (40_codec.md R100, R102, R104), the
channel-selection rule and the pixel values (41_bayer.md R120 to R125), and the lists of the transactions (42_sequencer.md
R140, R142, R143, R155). -/

namespace Sys2Proof.Machine

/-- R100, R29: "The range check 0 ≤ VALUE ≤ 1023" fails. -/
def outOfRange (v : Raw16) : Bool := decide (1023 < v.toNat)

/-- R101, R126: v[9:0]. -/
def sampleOf (v : Raw16) : Sample10 := v.extractLsb' 0 10

/-- R100: lsb = v & 0xFF. -/
def packLsb (v : Sample10) : Byte := (v &&& 0xFF#10).setWidth 8

/-- R100: msb = (v >> 8) & 0x03. -/
def packMsb (v : Sample10) : Byte := ((v >>> 8) &&& 0x03#10).setWidth 8

/-- R102: unpack(lsb, msb) = ((msb & 0x03) << 8) | lsb, which ignores msb[7:2] (conflict C5). -/
def unpack (lsb msb : Byte) : Sample10 := ((msb.setWidth 10 &&& 0x03#10) <<< 8) ||| lsb.setWidth 10

/-- R104: rescale8to10(v8) = (v8 * 1023 + 127) // 255, the formula (conflict C1; log 15). -/
def rescale8to10 (v8 : Byte) : Sample10 := BitVec.ofNat 10 ((v8.toNat * 1023 + 127) / 255)

/-- R120: the channel of the pixel at column x and row y. -/
def chan (x y : Nat) : Channel :=
  if y % 2 = 0 then (if x % 2 = 0 then .r else .g) else (if x % 2 = 0 then .g else .b)

/-- R120: the site code of a pixel, y[0] above x[0]. -/
def site (x y : Nat) : BitVec 2 := BitVec.ofNat 1 y ++ BitVec.ofNat 1 x

/-- R122: the raw value of a channel in uniform mode. -/
def uniformVal (snap : OperandRegs) : Channel → Raw16
  | .r => snap.chR
  | .g => snap.chG
  | .b => snap.chB

/-- R125: `ExtSrc(x, y, ch)`: the listed answer, or the free function of this command (log 5). -/
def extSrc (e : ExtSource) (x y : Nat) (c : Channel) : Raw16 :=
  match e.table.find? (fun a => decide (a.x = BitVec.ofNat 16 x ∧ a.y = BitVec.ofNat 16 y ∧ a.ch = c)) with
  | some a => a.value
  | none => Config.freePixel e.draw (BitVec.ofNat 16 x) (BitVec.ofNat 16 y) c.code

/-- R124: the 16-bit value of pixel (x, y). -/
def pixval (snap : OperandRegs) (e : ExtSource) (x y : Nat) : Raw16 :=
  if snap.src = 0#1 then uniformVal snap (chan x y) else extSrc e x y (chan x y)

/-- R127: some value that a stream's validation asks for exceeds 1023: one of the three channel values in uniform mode,
the value of some pixel of the range in external mode. -/
def streamValueBad (snap : OperandRegs) (e : ExtSource) : Bool :=
  if snap.src = 0#1 then
    outOfRange snap.chR || outOfRange snap.chG || outOfRange snap.chB
  else
    (List.range (snap.rowY1.toNat - snap.rowY0.toNat)).any fun k =>
      (List.range snap.frameW.toNat).any fun x => outOfRange (pixval snap e x (snap.rowY0.toNat + k))

/-- R127: W or H above MAX_DIM, or a row range outside 0 ≤ Y0 ≤ Y1 ≤ H. -/
def streamDimBad (maxDim : Nat) (snap : OperandRegs) : Bool :=
  decide (maxDim < snap.frameW.toNat) || decide (maxDim < snap.frameH.toNat) ||
    decide (snap.rowY1.toNat < snap.rowY0.toNat) || decide (snap.frameH.toNat < snap.rowY1.toNat)

/-- R153: the list of SEQ_LIST, the first WL_LEN entries of the snapshot's write list. -/
def seqListEntries (snap : OperandRegs) : List TxEntry := snap.wl.take snap.wlLen.toNat

/-- R140: the value SEQ_TP writes to each named pair; both greens take CH_G. -/
def mapValue (snap : OperandRegs) : MapName → Raw16
  | .testPatternEnable => snap.tpeValue
  | .red => snap.chR
  | .green1 => snap.chG
  | .green2 => snap.chG
  | .blue => snap.chB

/-- R155: the list of SEQ_TP, the register map in table order with the snapshot's values. -/
def seqTpEntries (snap : OperandRegs) : List TxEntry :=
  Config.registerMap.map fun r => ⟨r.lsb, mapValue snap r.name⟩

/-- A validation failure: its cause, ERR_ADDR and list index (R143). -/
structure Failure where
  cause : Cause
  addr : RegAddr
  index : Nat
  deriving DecidableEq, Repr

/-- R143: the scan of a list in index order from index `i`; the pair check stands before the range check, and the first failing
check wins. -/
def validateFrom (i : Nat) : List TxEntry → Option Failure
  | [] => none
  | e :: rest =>
    if e.addr = 0xFFFF#16 then some ⟨.validationPair, e.addr, i⟩
    else if outOfRange e.value then some ⟨.validationRange, 0, i⟩
    else validateFrom (i + 1) rest

end Sys2Proof.Machine
end

