-- ==== Sys2Proof/Machine/Ops.lean ====
section
/-! DEFINITION. The primitives of 00_scope.md R10 over the state, each named once: completion and raising a cause
(60_exceptions.md R184), acceptance (R188), the engine's position (R9, R47), the bus write (42_sequencer.md R147), the log
(R150), emission (20_memory.md R61) and the reset step (70_reset_and_hazards.md R211). -/

namespace Sys2Proof.Machine

/-- What one step answers. -/
abbrev Result := Host.Outcome State Fault Refusal

/-- R184: `finish`, the one way a command ends: CAUSE, ERRINFO, LAST_OP = cw[7:0], DONE_CNT + 1 modulo 256, engine Idle. -/
def finish (c : Cause) (e : ErrInfo) (cw : Word) (s : State) : State :=
  { s with cause := c, errInfo := e, lastOp := opcodeOf cw, doneCnt := s.doneCnt + 1, engine := .idle }

/-- R184: complete(OK). -/
def complete (cw : Word) (s : State) : State := finish .ok ⟨0, 0, 0⟩ cw s

/-- R184: raise C(addr, transport, index), with ERR_INDEX = index[7:0]. The block's whole error "entry": nothing is saved and
control goes nowhere (R186). -/
def raise (c : Cause) (addr : RegAddr) (transport : BitVec 4) (index : Nat) (cw : Word) (s : State) : State :=
  finish c ⟨addr, transport, BitVec.ofNat 8 index⟩ cw s

/-- R9, R47: pos <- ph. -/
def goTo (cw : Word) (snap : OperandRegs) (ext : ExtSource) (ph : Phase) (s : State) : State :=
  { s with engine := .busy cw snap ext ph }

/-- The step of a command that has only its Start phase (R47); in any other phase no rule gives it a step. -/
def atStart (s : State) (f : Word → OperandRegs → ExtSource → Result) : Result :=
  match s.engine with
  | .busy cw snap ext .start => f cw snap ext
  | .busy _ _ _ (.seqWrite _ _) => .fault .noRule
  | .busy _ _ _ (.seqSettle _) => .fault .noRule
  | .busy _ _ _ (.streamEmit _ _) => .fault .noRule
  | .idle => .fault .noRule

/-- R188: the engine accepts the word: Busy in phase Start, with a snapshot of the operand CSRs (R48) and the source function
the command will use (R49, R125). -/
def accept (cw : Word) (s : State) : State :=
  { s with engine := .busy cw s.regs ⟨s.extTable, s.accepted⟩ .start, accepted := s.accepted + 1 }

/-- R188: a host write of CMD: rejected with REJ = 1 while the engine is Busy, accepted while it is Idle. -/
def issue (cw : Word) (s : State) : State :=
  if s.engine.isBusy then { s with rej := true } else accept cw s

/-- R147: the outcome of the next BusWrite: the bus's known answer, or a free draw (log 4). -/
def busOutcome (s : State) : BusOutcome :=
  match s.busAnswers with
  | r :: _ => r
  | [] => Config.freeBusOutcome s.busHistory.length

/-- R147, R66: one byte write: its record joins the bus history, and a known answer is used up. -/
def busWrite (dev : BitVec 7) (reg : RegAddr) (byte : Byte) (s : State) : State :=
  { s with
    busHistory := s.busHistory ++ [⟨dev, reg, byte, busOutcome s⟩]
    busAnswers := s.busAnswers.tail }

/-- R150: LogAppend: a full log drops the entry and sets LOG_OVF. -/
def logAppend (e : LogEntry) (s : State) : State :=
  if s.log.length < s.params.logDepth then { s with log := s.log ++ [e] } else { s with logOvf := true }

/-- R171: the log emptied and LOG_OVF cleared. -/
def logClear (s : State) : State := { s with log := [], logOvf := false }

/-- R10, R61: Emit(b). -/
def emit (b : Byte) (s : State) : State := { s with pixOut := s.pixOut ++ [b] }

/-- R28: DOUT with all five fields written; LSB and MSB are pack(SAMPLE). -/
def writeDout (st ch : BitVec 2) (sample : Sample10) (s : State) : State :=
  { s with dout := ⟨st, ch, sample, packMsb sample, packLsb sample⟩ }

/-- R33: x[POS] <- (x, y). -/
def setPos (x y : Nat) (s : State) : State :=
  { s with posX := BitVec.ofNat 16 x, posY := BitVec.ofNat 16 y }

/-- R149, R194: the settle delay has passed; the model keeps its lower bound on time (log 8). -/
def settle (ms : BitVec 16) (s : State) : State := { s with waitedMs := s.waitedMs + ms.toNat }

/-- R211: the reset step: the engine Idle, every CSR at its reset value (R51), the log empty. PARAM, the bus history and the
emitted bytes stay, and so does what the outside agents hold (log 19). -/
def resetBlock (s : State) : State :=
  { s with
    regs := OperandRegs.reset s.params
    logSel := 0
    rej := false
    logOvf := false
    cause := .ok
    lastOp := 0
    doneCnt := 0
    errInfo := ⟨0, 0, 0⟩
    dout := ⟨0, 0, 0, 0, 0⟩
    posX := 0
    posY := 0
    pixCount := 0
    log := []
    engine := .idle }

end Sys2Proof.Machine
end

