-- ==== Sys2Proof/Machine/Csr.lean ====
section
/-! DEFINITION. The CSR window as the host sees it (10_state.md R20 to R44, 20_memory.md R62, R64): which register stands at
an offset, what a read returns and what a write does. -/

namespace Sys2Proof.Machine

/-- The registers of the window (R20). -/
inductive Csr where
  | id
  | ctrl
  | status
  | cmd
  | errinfo
  | dout
  | chR
  | chG
  | chB
  | tpeValue
  | frameDim
  | rowRange
  | pos
  | pixCount
  | settleMs
  | devAddr
  | wlLen
  | logCount
  | logSel
  | logEntry
  | param
  | wl (i : Nat)
  deriving DecidableEq, Repr

/-- R20: the register at a byte offset; `none` for a reserved offset, the WL slots from WL_DEPTH up among them. -/
def csrAt (wlDepth off : Nat) : Option Csr :=
  match off with
  | 0x000 => some .id
  | 0x004 => some .ctrl
  | 0x008 => some .status
  | 0x00C => some .cmd
  | 0x010 => some .errinfo
  | 0x014 => some .dout
  | 0x018 => some .chR
  | 0x01C => some .chG
  | 0x020 => some .chB
  | 0x024 => some .tpeValue
  | 0x028 => some .frameDim
  | 0x02C => some .rowRange
  | 0x030 => some .pos
  | 0x034 => some .pixCount
  | 0x038 => some .settleMs
  | 0x03C => some .devAddr
  | 0x040 => some .wlLen
  | 0x044 => some .logCount
  | 0x048 => some .logSel
  | 0x04C => some .logEntry
  | 0x050 => some .param
  | n => if 0x080 ≤ n ∧ (n - 0x080) / 4 < wlDepth then some (.wl ((n - 0x080) / 4)) else none

/-- R24: the STATUS word. -/
def statusWord (s : State) : Word :=
  s.doneCnt ++ s.lastOp ++ 0#4 ++ s.cause.code ++ 0#3 ++ BitVec.ofBool s.logOvf ++ BitVec.ofBool s.rej ++
    BitVec.ofBool s.engine.isStreaming ++ BitVec.ofBool s.engine.ownsBus ++ BitVec.ofBool s.engine.isBusy

/-- R27: the ERRINFO word. -/
def errInfoWord (e : ErrInfo) : Word := 0#4 ++ e.index ++ e.transport ++ e.addr

/-- R28: the DOUT word. -/
def doutWord (d : Dout) : Word := 0#2 ++ d.site ++ d.ch ++ d.sample ++ d.msb ++ d.lsb

/-- R41: the word of a transaction-log entry. -/
def logEntryWord (e : LogEntry) : Word :=
  transportCode e.outcome ++ 0#3 ++ BitVec.ofBool (failBit e.outcome) ++ e.value ++ e.addr

/-- R40: what LOG_ENTRY shows: the selected entry while the index is below LOG_COUNT, otherwise 0. -/
def logEntryRead (s : State) : Word :=
  match s.log[s.logSel.toNat]? with
  | some e => logEntryWord e
  | none => 0

/-- R42: the PARAM word. -/
def paramWord (p : Params) : Word := 0#8 ++ BitVec.ofNat 16 p.logDepth ++ BitVec.ofNat 8 p.wlDepth

/-- R20 to R44: what a read of a register returns; no read changes anything (R64). -/
def readCsr (s : State) : Csr → Word
  | .id => 0x30314752
  | .ctrl => 0#31 ++ s.regs.src
  | .status => statusWord s
  | .cmd => 0
  | .errinfo => errInfoWord s.errInfo
  | .dout => doutWord s.dout
  | .chR => 0#16 ++ s.regs.chR
  | .chG => 0#16 ++ s.regs.chG
  | .chB => 0#16 ++ s.regs.chB
  | .tpeValue => 0#16 ++ s.regs.tpeValue
  | .frameDim => s.regs.frameH ++ s.regs.frameW
  | .rowRange => s.regs.rowY1 ++ s.regs.rowY0
  | .pos => s.posY ++ s.posX
  | .pixCount => s.pixCount
  | .settleMs => 0#16 ++ s.regs.settleMs
  | .devAddr => 0#25 ++ s.regs.devAddr
  | .wlLen => 0#24 ++ s.regs.wlLen
  | .logCount => 0#16 ++ logCount s
  | .logSel => 0#16 ++ s.logSel
  | .logEntry => logEntryRead s
  | .param => paramWord s.params
  | .wl i =>
    match s.regs.wl[i]? with
    | some e => e.value ++ e.addr
    | none => 0

/-- R20, R21, R25, R26: what a write of `v` to a register does: a RW register stores its named fields, a STATUS write may clear
REJ, a CMD write issues a command, and a write to a RO register has no effect. -/
def writeCsr (s : State) (v : Word) : Csr → State
  | .id => s
  | .ctrl => { s with regs := { s.regs with src := v.extractLsb' 0 1 } }
  | .status => if v.extractLsb' 3 1 = 1#1 then { s with rej := false } else s
  | .cmd => issue v s
  | .errinfo => s
  | .dout => s
  | .chR => { s with regs := { s.regs with chR := v.extractLsb' 0 16 } }
  | .chG => { s with regs := { s.regs with chG := v.extractLsb' 0 16 } }
  | .chB => { s with regs := { s.regs with chB := v.extractLsb' 0 16 } }
  | .tpeValue => { s with regs := { s.regs with tpeValue := v.extractLsb' 0 16 } }
  | .frameDim => { s with regs := { s.regs with frameW := v.extractLsb' 0 16, frameH := v.extractLsb' 16 16 } }
  | .rowRange => { s with regs := { s.regs with rowY0 := v.extractLsb' 0 16, rowY1 := v.extractLsb' 16 16 } }
  | .pos => s
  | .pixCount => s
  | .settleMs => { s with regs := { s.regs with settleMs := v.extractLsb' 0 16 } }
  | .devAddr => { s with regs := { s.regs with devAddr := v.extractLsb' 0 7 } }
  | .wlLen => { s with regs := { s.regs with wlLen := v.extractLsb' 0 8 } }
  | .logCount => s
  | .logSel => { s with logSel := v.extractLsb' 0 16 }
  | .logEntry => s
  | .param => s
  | .wl i => { s with regs := { s.regs with wl := s.regs.wl.set i ⟨v.extractLsb' 0 16, v.extractLsb' 16 16⟩ } }

/-- R64: the host access is admitted: 4 bytes wide, aligned, below 0x100. -/
def admitted (width off : Nat) : Bool := width == 4 && off % 4 == 0 && decide (off < 0x100)

/-- R64, R21: MemRead(off, 4): the value at an admitted offset; a reserved offset reads 0. -/
def memRead (s : State) (off : Nat) : Word :=
  match csrAt s.params.wlDepth off with
  | some c => readCsr s c
  | none => 0

/-- R64, R21: MemWrite(off, 4, v): a write to a reserved offset has no effect. -/
def memWrite (s : State) (off : Nat) (v : Word) : State :=
  match csrAt s.params.wlDepth off with
  | some c => writeCsr s v c
  | none => s

/-- A host read as one turn (R64, R65): its value is what the host got (log 16); an access that is not admitted is refused. -/
def hostRead (width off : Nat) (s : State) : Result :=
  if admitted width off then .next { s with hostReads := s.hostReads ++ [memRead s off] } else .refused .hostAccess

/-- A host write as one turn (R64, R65); an access that is not admitted is refused. -/
def hostWrite (width off : Nat) (v : Word) (s : State) : Result :=
  if admitted width off then .next (memWrite s off v) else .refused .hostAccess

/-- `poll` as one turn (R88): one read of STATUS; while it shows BUSY = 1 the engine gets a turn and the poll comes again
(log 21). -/
def pollTurn (s : State) : Result :=
  .next { s with
    hostReads := s.hostReads ++ [statusWord s]
    script := if s.engine.isBusy then .engine :: .poll :: s.script else s.script }

end Sys2Proof.Machine
end

