-- ==== Sys2Proof/Machine/Bayer.lean ====
section
/-! DEFINITION. The Bayer router commands (41_bayer.md): ROUTE, PIXEL, STREAM. -/

namespace Sys2Proof.Machine

/-- R121: ROUTE: the channel and the site of a pixel position. -/
def execRoute (x y : Coord12) (s : State) : Result :=
  atStart s fun cw _ _ => .next (complete cw (writeDout (site x.toNat y.toNat) (chan x.toNat y.toNat).code 0 s))

/-- R126: PIXEL: only the value of the pixel itself is checked. -/
def execPixel (x y : Coord12) (s : State) : Result :=
  atStart s fun cw snap ext =>
    if outOfRange (pixval snap ext x.toNat y.toNat) then .next (raise .validationRange 0 0 0 cw s)
    else .next (complete cw (writeDout (site x.toNat y.toNat) (chan x.toNat y.toNat).code
      (sampleOf (pixval snap ext x.toNat y.toNat)) s))

/-- R127: the Start step of STREAM: everything is checked before any byte is emitted. -/
def streamStart (cw : Word) (snap : OperandRegs) (ext : ExtSource) (s : State) : Result :=
  if streamDimBad s.params.maxDim snap then .next (raise .validationDim 0 0 0 cw s)
  else if streamValueBad snap ext then .next (raise .validationRange 0 0 0 cw s)
  else
    let t := { setPos 0 snap.rowY0.toNat s with pixCount := 0 }
    if snap.frameW = 0#16 ∨ snap.rowY0 = snap.rowY1 then .next (complete cw t)
    else .next (goTo cw snap ext (.streamEmit 0 snap.rowY0.toNat) t)

/-- R128: the pixel after (x, y) in row-major order. -/
def nextPixel (w x y : Nat) : Nat × Nat := if x + 1 < w then (x + 1, y) else (0, y + 1)

/-- R128: the effects of emitting one pixel of value v: two bytes, the low one first, PIX_COUNT and POS. -/
def emitPixel (v : Raw16) (next : Nat × Nat) (s : State) : State :=
  let t := emit (packMsb (sampleOf v)) (emit (packLsb (sampleOf v)) s)
  setPos next.1 next.2 { t with pixCount := s.pixCount + 1 }

/-- R128: the StreamEmit(x, y) step. -/
def streamEmitStep (cw : Word) (snap : OperandRegs) (ext : ExtSource) (x y : Nat) (s : State) : Result :=
  let v := pixval snap ext x y
  let next := nextPixel snap.frameW.toNat x y
  if outOfRange v then .fault .packUndefined
  else if next.2 = snap.rowY1.toNat then .next (complete cw (emitPixel v next s))
  else .next (goTo cw snap ext (.streamEmit next.1 next.2) (emitPixel v next s))

/-- R129: STREAM, by its phase. -/
def execStream (s : State) : Result :=
  match s.engine with
  | .busy cw snap ext .start => streamStart cw snap ext s
  | .busy cw snap ext (.streamEmit x y) => streamEmitStep cw snap ext x y s
  | .busy _ _ _ (.seqWrite _ _) => .fault .noRule
  | .busy _ _ _ (.seqSettle _) => .fault .noRule
  | .idle => .fault .noRule

end Sys2Proof.Machine
end

