-- ==== Sys2Proof/Machine/Codec.lean ====
section
/-! DEFINITION. The codec commands (40_codec.md): PACK, UNPACK, RESCALE. Each completes in its Start step and writes DOUT with
SITE = 0 and CH = 0. -/

namespace Sys2Proof.Machine

/-- R101: PACK; a value above 1023 raises VALIDATION_RANGE and leaves DOUT unchanged. -/
def execPack (value : Raw16) (s : State) : Result :=
  atStart s fun cw _ _ =>
    if outOfRange value then .next (raise .validationRange 0 0 0 cw s)
    else .next (complete cw (writeDout 0 0 (sampleOf value) s))

/-- R103: UNPACK; msb[7:2] are ignored. -/
def execUnpack (lsb msb : Byte) (s : State) : Result :=
  atStart s fun cw _ _ => .next (complete cw (writeDout 0 0 (unpack lsb msb) s))

/-- R105: RESCALE. -/
def execRescale (v8 : Byte) (s : State) : Result :=
  atStart s fun cw _ _ => .next (complete cw (writeDout 0 0 (rescale8to10 v8) s))

end Sys2Proof.Machine
end

