-- ==== Sys2Proof/Machine/Control.lean ====
section
/-! DEFINITION. The control commands (43_control.md): NOP, LOG_CLEAR, and the one step of an illegal word (30_encoding.md
R85). -/

namespace Sys2Proof.Machine

/-- R170: NOP does nothing but complete. -/
def execNop (s : State) : Result :=
  atStart s fun cw _ _ => .next (complete cw s)

/-- R171: LOG_CLEAR empties the transaction log. -/
def execLogClear (s : State) : Result :=
  atStart s fun cw _ _ => .next (complete cw (logClear s))

/-- R85: the one engine step of an illegal word completes it with ILLEGAL_CMD and ERRINFO = 0. -/
def execIllegal (s : State) : Result :=
  atStart s fun cw _ _ => .next (raise .illegalCmd 0 0 0 cw s)

end Sys2Proof.Machine
end

