-- ==== Sys2Proof/Machine/Sequencer.lean ====
section
/-! DEFINITION. The sequencer commands (42_sequencer.md): the transaction procedure R143 to R152, once, and SEQ_LIST and SEQ_TP
over it. -/

namespace Sys2Proof.Machine

/-- R144: the Start step after the command's own checks: validate, then complete an empty transaction or enter SeqWrite(0, Lo). -/
def txStart (entries : List TxEntry) (cw : Word) (snap : OperandRegs) (ext : ExtSource) (s : State) : Result :=
  match validateFrom 0 entries with
  | some f => .next (raise f.cause f.addr 0 f.index cw s)
  | none =>
    match entries with
    | [] => .next (complete cw s)
    | _ :: _ => .next (goTo cw snap ext (.seqWrite 0 .lo) s)

/-- R145: the register a SeqWrite step writes: address_lsb, then address_lsb + 1. -/
def txReg (e : TxEntry) : Half → RegAddr
  | .lo => e.addr
  | .hi => e.addr + 1

/-- R145: the byte a SeqWrite step writes: the low byte, then the high bits. -/
def txByte (e : TxEntry) : Half → Byte
  | .lo => packLsb (sampleOf e.value)
  | .hi => packMsb (sampleOf e.value)

/-- R145: the phase after a write that answered OK. -/
def afterWrite (i : Nat) : Half → Phase
  | .lo => .seqWrite i .hi
  | .hi => .seqSettle i

/-- R145, R150: the bus write and its log entry. -/
def writeAndLog (dev : BitVec 7) (reg : RegAddr) (byte : Byte) (s : State) : State :=
  logAppend ⟨reg, byte, busOutcome s⟩ (busWrite dev reg byte s)

/-- R145: the SeqWrite(i, half) step; a failing write ends the transaction. -/
def txWrite (entries : List TxEntry) (cw : Word) (snap : OperandRegs) (ext : ExtSource) (i : Nat) (half : Half)
    (s : State) : Result :=
  match entries[i]? with
  | none => .fault .noRule
  | some e =>
    if outOfRange e.value then .fault .packUndefined
    else
      let t := writeAndLog snap.devAddr (txReg e half) (txByte e half) s
      match busOutcome s with
      | .ok => .next (goTo cw snap ext (afterWrite i half) t)
      | .fail k => .next (raise .busError (txReg e half) (transportCode (.fail k)) i cw t)

/-- R149: the SeqSettle(i) step: the delay after pair i, the last pair included. -/
def txSettle (entries : List TxEntry) (cw : Word) (snap : OperandRegs) (ext : ExtSource) (i : Nat) (s : State) : Result :=
  if entries.length ≤ i then .fault .noRule
  else if i + 1 < entries.length then .next (goTo cw snap ext (.seqWrite (i + 1) .lo) (settle snap.settleMs s))
  else .next (complete cw (settle snap.settleMs s))

/-- R153: SEQ_LIST: WL_LEN is checked first, then the transaction over the write list. -/
def execSeqList (s : State) : Result :=
  match s.engine with
  | .busy cw snap ext .start =>
    if s.params.wlDepth < snap.wlLen.toNat then .next (raise .validationLen 0 0 0 cw s)
    else txStart (seqListEntries snap) cw snap ext s
  | .busy cw snap ext (.seqWrite i half) => txWrite (seqListEntries snap) cw snap ext i half s
  | .busy cw snap ext (.seqSettle i) => txSettle (seqListEntries snap) cw snap ext i s
  | .busy _ _ _ (.streamEmit _ _) => .fault .noRule
  | .idle => .fault .noRule

/-- R156: SEQ_TP: the transaction over the register map. -/
def execSeqTp (s : State) : Result :=
  match s.engine with
  | .busy cw snap ext .start => txStart (seqTpEntries snap) cw snap ext s
  | .busy cw snap ext (.seqWrite i half) => txWrite (seqTpEntries snap) cw snap ext i half s
  | .busy cw snap ext (.seqSettle i) => txSettle (seqTpEntries snap) cw snap ext i s
  | .busy _ _ _ (.streamEmit _ _) => .fault .noRule
  | .idle => .fault .noRule

end Sys2Proof.Machine
end

