-- ==== Sys2Proof/Machine/Dispatch.lean ====
section
/-! DEFINITION. The dispatch: the engine step of a command, in the phase the engine is in (30_encoding.md R83). -/

namespace Sys2Proof.Machine

def exec (i : Instr) (s : State) : Host.Outcome State Fault Refusal :=
  match i with
  | .nop => Sys2Proof.Machine.execNop s
  | .logClear => Sys2Proof.Machine.execLogClear s
  | .pack value => Sys2Proof.Machine.execPack value s
  | .unpack lsb msb => Sys2Proof.Machine.execUnpack lsb msb s
  | .rescale v8 => Sys2Proof.Machine.execRescale v8 s
  | .route x y => Sys2Proof.Machine.execRoute x y s
  | .pixel x y => Sys2Proof.Machine.execPixel x y s
  | .stream => Sys2Proof.Machine.execStream s
  | .seqList => Sys2Proof.Machine.execSeqList s
  | .seqTp => Sys2Proof.Machine.execSeqTp s

end Sys2Proof.Machine
end

