-- ==== Sys2Proof/Machine/Engine.lean ====
section
/-! DEFINITION. One turn of one agent: the engine's step of the word it holds (10_state.md R47, 30_encoding.md R84, R85), the
host's accesses, the external source's change and reset (00_scope.md R13, 60_exceptions.md R191). -/

namespace Sys2Proof.Machine

/-- The engine's turn: an Idle engine keeps all state (R199); a Busy engine takes the step its word gives it, in its phase. -/
def engineTurn (s : State) : Result :=
  match s.engine with
  | .idle => .next s
  | .busy cw _ _ _ =>
    match decode cw with
    | .ok i => exec i s
    | .error _ => execIllegal s

/-- One turn (R13, R191): exactly one agent acts. -/
def takeTurn (t : Turn) (s : State) : Result :=
  match t with
  | .engine => engineTurn s
  | .read width off => hostRead width off s
  | .write width off v => hostWrite width off v s
  | .poll => pollTurn s
  | .source table => .next { s with extTable := table }
  | .reset => .next (resetBlock s)

/-- The next turn of the run: the first of the script, or the engine's when the script is empty (log 2). -/
def nextTurn (s : State) : Result :=
  match s.script with
  | [] => engineTurn s
  | t :: rest => takeTurn t { s with script := rest }

/-- The machine about to take the Start step of the word, as if the host had just written it to CMD (R188; log 3): accepted by an
Idle engine, and the coming turn is the engine's. -/
def placeCommand (cw : Word) (s : State) : State :=
  let t := accept cw s
  { t with script := .engine :: s.script }

end Sys2Proof.Machine
end

