-- ==== Sys2Proof/Machine/Step.lean ====
section
/-! DEFINITION. One step of the machine, and the placing of a command so that the next step runs it. -/

namespace Sys2Proof.Machine

/-- One step: one turn of one agent (R70, R191). -/
def step (s : State) : Host.Outcome State Fault Refusal := nextTurn s

/-- The state with the command word `w` accepted, so that the very next step runs its Start step. The block fetches nothing
(R76): its instruction comes from a CMD write (log 3). -/
def State.withFetchWord (s : State) (nbits w : Nat) : State := placeCommand (BitVec.ofNat 32 (w % 2 ^ nbits)) s

end Sys2Proof.Machine
end

