-- ==== Sys2Proof/Machine/HostSyntax.lean ====
section
/-! DEFINITION. The host steps of the spec's notation and their expansions into turns (30_encoding.md R87, R88). -/

namespace Sys2Proof.Machine

/-- A line of a host program (R87, R88), with its operands as the numbers written. -/
inductive HostOp where
  /-- `wr OFF, V`. -/
  | wr (off v : Nat)
  /-- `rd OFF`. -/
  | rd (off : Nat)
  /-- A command line. -/
  | cmd (a : Asm)
  /-- `poll`. -/
  | poll
  /-- `setrgb R, G, B`. -/
  | setrgb (r g b : Nat)
  /-- `seq.pair ADDR, VALUE`. -/
  | seqPair (addr value : Nat)
  /-- `frame W, H`. -/
  | frame (w h : Nat)
  /-- `rows Y0, Y1`. -/
  | rows (y0 y1 : Nat)
  deriving DecidableEq, Repr

/-- R87: `wr OFF, V` is MemWrite(OFF, 4, V); a value that is no 32-bit word is an assembly error. -/
def wrTurns (off v : Nat) : Option (List Turn) :=
  if v < 2 ^ 32 then some [.write 4 off (BitVec.ofNat 32 v)] else none

/-- Two 16-bit fields in one word, the second above the first (R88); a field out of range is an assembly error. -/
def pairWord (lo hi : Nat) : Option Nat :=
  if lo < 2 ^ 16 ∧ hi < 2 ^ 16 then some (hi * 2 ^ 16 + lo) else none

/-- R88: the turns a line stands for; `none` is an assembly error. -/
def HostOp.turns : HostOp → Option (List Turn)
  | .wr off v => wrTurns off v
  | .rd off => some [.read 4 off]
  | .cmd a => a.assemble.map fun i => [.write 4 0x00C (encode i)]
  | .poll => some [.poll]
  | .setrgb r g b => do
    let t1 ← wrTurns 0x018 r
    let t2 ← wrTurns 0x01C g
    let t3 ← wrTurns 0x020 b
    pure (t1 ++ t2 ++ t3)
  | .seqPair addr value => do
    let w ← pairWord addr value
    let t1 ← wrTurns 0x080 w
    let t2 ← wrTurns 0x040 1
    pure (t1 ++ t2 ++ [.write 4 0x00C (encode .seqList)])
  | .frame w h => do
    let d ← pairWord w h
    let r ← pairWord 0 h
    let t1 ← wrTurns 0x028 d
    let t2 ← wrTurns 0x02C r
    pure (t1 ++ t2)
  | .rows y0 y1 => do
    let r ← pairWord y0 y1
    wrTurns 0x02C r

/-- The turns of a host program, line after line; `none` if any line is an assembly error. -/
def hostTurns : List HostOp → Option (List Turn)
  | [] => some []
  | op :: rest => do
    let t ← op.turns
    let ts ← hostTurns rest
    pure (t ++ ts)

end Sys2Proof.Machine
end

