-- ==== Sys2Proof/Safety.lean ====
section
/-! DEFINITION. What holds of every state a run reaches, in the terms the statements use: `Invariant`, whether the coming turn
is the engine's (`EngineNext`), and the number of engine turns a command may still take (60_exceptions.md R189). -/

namespace Sys2Proof.Machine

/-- R191: the coming turn is the engine's, and `rest` is the script after it: the script is empty, or its first turn is the
engine's (log 2). -/
def EngineNext (s : State) (rest : List Turn) : Prop :=
  (s.script = [] ∧ rest = []) ∨ s.script = .engine :: rest

/-- R183: what ERRINFO holds beside each cause, for a command whose opcode byte is `op` (LAST_OP). The index of a
VALIDATION_RANGE is a list index for SEQ_LIST and SEQ_TP and 0 for every other command. -/
def ErrInfoOk (c : Cause) (e : ErrInfo) (op : Byte) : Prop :=
  match c with
  | .ok => e = ⟨0, 0, 0⟩
  | .validationRange => e.addr = 0 ∧ e.transport = 0 ∧ (op ≠ 0x30 → op ≠ 0x31 → e.index = 0)
  | .validationDim => e = ⟨0, 0, 0⟩
  | .validationPair => e.addr = 0xFFFF ∧ e.transport = 0
  | .validationLen => e = ⟨0, 0, 0⟩
  | .busError => e.transport ≠ 0
  | .illegalCmd => e = ⟨0, 0, 0⟩

/-- R28, R11: "LSB and MSB equal to pack(SAMPLE)", msb[7:2] zero, and channel code 3 is never produced. -/
def DoutOk (d : Dout) : Prop :=
  d.lsb.toNat = d.sample.toNat % 256 ∧ d.msb.toNat = d.sample.toNat / 256 ∧ d.ch ≠ 3

/-- R143: every entry of a validated list is a valid pair start and holds a value of at most 1023. -/
def EntriesOk (entries : List TxEntry) : Prop :=
  ∀ e ∈ entries, e.addr ≠ 0xFFFF#16 ∧ e.value.toNat ≤ 1023

/-- R142: `txlist(cw, snap)`: the list of the transaction that a word starts, if it is SEQ_LIST or SEQ_TP. -/
def txList (cw : Word) (snap : OperandRegs) : Option (List TxEntry) :=
  match decode cw with
  | .ok .seqList => some (seqListEntries snap)
  | .ok .seqTp => some (seqTpEntries snap)
  | _ => none

/-- A transaction stands at a valid index of a validated list (R47, R143, R153). -/
def TxOk (p : Params) (cw : Word) (snap : OperandRegs) (i : Nat) : Prop :=
  ∃ entries, txList cw snap = some entries ∧ i < entries.length ∧ entries.length ≤ p.wlDepth ∧ EntriesOk entries

/-- R127: a stream's dimensions and row range have passed validation, and so has every value it may ask for. -/
def StreamOk (p : Params) (snap : OperandRegs) (ext : ExtSource) : Prop :=
  snap.frameW.toNat ≤ p.maxDim ∧ snap.frameH.toNat ≤ p.maxDim ∧ snap.rowY1.toNat ≤ snap.frameH.toNat ∧
    ∀ x y, x < snap.frameW.toNat → snap.rowY0.toNat ≤ y → y < snap.rowY1.toNat → (pixval snap ext x y).toNat ≤ 1023

/-- R47, R128: where a stream stands: inside its range, with POS and PIX_COUNT showing it (R33, R34). -/
def StreamAt (s : State) (snap : OperandRegs) (x y : Nat) : Prop :=
  x < snap.frameW.toNat ∧ snap.rowY0.toNat ≤ y ∧ y < snap.rowY1.toNat ∧ s.posX.toNat = x ∧ s.posY.toNat = y ∧
    s.pixCount.toNat = snap.frameW.toNat * (y - snap.rowY0.toNat) + x

/-- The engine's phase belongs to the command it holds, and what that command has validated still holds of its snapshot. -/
def EngineOk (s : State) : Prop :=
  match s.engine with
  | .idle => True
  | .busy _ snap _ .start => snap.wl.length = s.params.wlDepth
  | .busy cw snap _ (.seqWrite i _) => snap.wl.length = s.params.wlDepth ∧ TxOk s.params cw snap i
  | .busy cw snap _ (.seqSettle i) => snap.wl.length = s.params.wlDepth ∧ TxOk s.params cw snap i
  | .busy cw snap ext (.streamEmit x y) =>
    snap.wl.length = s.params.wlDepth ∧ decode cw = .ok .stream ∧ StreamOk s.params snap ext ∧ StreamAt s snap x y

/-- The invariant of the machine: a valid instance (R7), a write list of WL_DEPTH entries (R44), a log of at most LOG_DEPTH
entries (R38), ERRINFO as its cause and command say (R183), DOUT a packed sample (R28), and an engine in a phase of its command. -/
def Invariant (s : State) : Prop :=
  s.params.wf = true ∧ s.regs.wl.length = s.params.wlDepth ∧ s.log.length ≤ s.params.logDepth ∧
    ErrInfoOk s.cause s.errInfo s.lastOp ∧ DoutOk s.dout ∧ EngineOk s

/-- R189: how many engine turns the command in the engine may still take; 0 when the engine is Idle. -/
def turnsLeft (s : State) : Nat :=
  match s.engine with
  | .idle => 0
  | .busy cw snap _ .start =>
    match decode cw with
    | .ok .stream => snap.frameW.toNat * (snap.rowY1.toNat - snap.rowY0.toNat) + 1
    | .ok .seqList => 3 * (seqListEntries snap).length + 1
    | .ok .seqTp => 3 * 5 + 1
    | _ => 1
  | .busy cw snap _ (.seqWrite i .lo) => 3 * (((txList cw snap).getD []).length - i)
  | .busy cw snap _ (.seqWrite i .hi) => 3 * (((txList cw snap).getD []).length - i) - 1
  | .busy cw snap _ (.seqSettle i) => 3 * (((txList cw snap).getD []).length - i) - 2
  | .busy _ snap _ (.streamEmit x y) => snap.frameW.toNat * (snap.rowY1.toNat - y) - x

/-- A step that stops only as the spec says a step may: never with a fault. -/
def NoFault (r : Result) : Prop := ∀ f, r ≠ .fault f

end Sys2Proof.Machine
end

