-- ==== Sys2Proof/Certificates/Slice0/Obligations.lean ====
section
/-! DEFINITION. The statements for the provers, each from the numbered rules of spec/ that its docstring names. A statement
about a step gives the whole next state, so that it is also the step's frame: what it does not list is unchanged. The block
has no memory (R60): what a command can store is bytes of PIX_OUT and BusWrites, and both histories are fields of the state. -/

namespace Sys2Proof.Claims

open Sys2Proof Sys2Proof.Machine

/-- R184: the state `s` with a command ended: `c` in CAUSE, `e` in ERRINFO, `op` in LAST_OP, DONE_CNT counted, engine Idle. -/
def ended (s : State) (c : Cause) (e : ErrInfo) (op : Byte) : State :=
  { s with engine := .idle, cause := c, errInfo := e, lastOp := op, doneCnt := s.doneCnt + 1 }

/-- `k` steps of the machine lead from `s` to `t`, none of them stopping. -/
def runsTo (k : Nat) (s t : State) : Prop := Host.Core.run Sys2Proof.core k s = .next t

/-- R85, in numbers: an unassigned opcode, or an assigned one with a reserved bit (R81) that is not 0. -/
def illegalWord (cw : Word) : Prop :=
  cw.toNat % 256 ∉ [0x00, 0x01, 0x10, 0x11, 0x12, 0x20, 0x21, 0x22, 0x30, 0x31] ∨
    (cw.toNat % 256 ∈ [0x00, 0x01, 0x22, 0x30, 0x31] ∧ cw.toNat / 256 ≠ 0) ∨
    (cw.toNat % 256 ∈ [0x10, 0x11, 0x12] ∧ cw.toNat / 256 % 256 ≠ 0) ∨
    (cw.toNat % 256 = 0x12 ∧ cw.toNat / 2 ^ 24 ≠ 0)

/-- R85, R190: the one engine step of the word `cw`, whenever it is accepted, ends it with ILLEGAL_CMD and ERRINFO = 0. -/
def endsIllegal (cw : Word) (op : Byte) : Prop :=
  ∀ (s : State) snap ext rest, EngineNext s rest → s.engine = .busy cw snap ext .start →
    step s = .next { ended s .illegalCmd ⟨0, 0, 0⟩ op with script := rest }

/-- R170, R171, R127, R153, R156: a word of format N whose opcode is `op` and whose bits 31:8 are not all 0 is illegal. -/
def reservedIllegalN (op : Byte) : Prop :=
  ∀ cw : Word, cw.toNat % 256 = op.toNat → cw.toNat / 256 ≠ 0 → endsIllegal cw op

/-- R120: the channel code of a pixel, from the parities of row and column. -/
def chanCode (x y : Nat) : BitVec 2 :=
  if y % 2 = 0 then (if x % 2 = 0 then 0 else 1) else (if x % 2 = 0 then 1 else 2)

/-- R120: the site code of a pixel: y[0] above x[0]. -/
def siteCode (x y : Nat) : BitVec 2 := BitVec.ofNat 2 (2 * (y % 2) + x % 2)

/-- R122, R123, R124: the value of pixel (x, y), written out by row and column parity. -/
def pixelRaw (snap : OperandRegs) (ext : ExtSource) (x y : Nat) : Nat :=
  if snap.src = 0#1 then
    if y % 2 = 0 then (if x % 2 = 0 then snap.chR.toNat else snap.chG.toNat)
    else (if x % 2 = 0 then snap.chG.toNat else snap.chB.toNat)
  else
    if y % 2 = 0 then (if x % 2 = 0 then (extSrc ext x y .r).toNat else (extSrc ext x y .g).toNat)
    else (if x % 2 = 0 then (extSrc ext x y .g).toNat else (extSrc ext x y .b).toNat)

/-- R28, R100: DOUT for a sample `v`, as numbers. -/
def doutOf (st ch : BitVec 2) (v : Nat) : Dout :=
  ⟨st, ch, BitVec.ofNat 10 v, BitVec.ofNat 8 (v / 256), BitVec.ofNat 8 (v % 256)⟩

/-- R61, R128: the two bytes of a sample, low byte first. -/
def sampleBytes (v : Nat) : List Byte := [BitVec.ofNat 8 (v % 256), BitVec.ofNat 8 (v / 256)]

/-- R61, R128: the bytes of rows [y0, y1) of a `w`-wide frame, row-major. -/
def frameBytes (w y0 y1 : Nat) (value : Nat → Nat → Nat) : List Byte :=
  (List.range (w * (y1 - y0))).flatMap fun i => sampleBytes (value (i % w) (y0 + i / w))

/-- R127: the dimension checks of STREAM fail. -/
def dimBad (maxDim : Nat) (snap : OperandRegs) : Prop :=
  maxDim < snap.frameW.toNat ∨ maxDim < snap.frameH.toNat ∨ snap.rowY1.toNat < snap.rowY0.toNat ∨
    snap.frameH.toNat < snap.rowY1.toNat

/-- R127: a value check of STREAM fails: all three channels in uniform mode, every pixel of the range in external mode. -/
def valueBad (snap : OperandRegs) (ext : ExtSource) : Prop :=
  (snap.src = 0#1 ∧ (1023 < snap.chR.toNat ∨ 1023 < snap.chG.toNat ∨ 1023 < snap.chB.toNat)) ∨
    (snap.src ≠ 0#1 ∧ ∃ x y, x < snap.frameW.toNat ∧ snap.rowY0.toNat ≤ y ∧ y < snap.rowY1.toNat ∧
      1023 < pixelRaw snap ext x y)

/-- The two sequencer commands: SEQ_TP for `true`, SEQ_LIST for `false`. -/
def seqInstr (tp : Bool) : Instr := if tp then .seqTp else .seqList

/-- R83: their words, which are also their opcodes (format N). -/
def seqWord (tp : Bool) : Word := if tp then 0x31 else 0x30

/-- R153, R155: their lists. -/
def seqEntries (tp : Bool) (snap : OperandRegs) : List TxEntry :=
  if tp then
    [⟨0x0600, snap.tpeValue⟩, ⟨0x0602, snap.chR⟩, ⟨0x0604, snap.chG⟩, ⟨0x0606, snap.chG⟩, ⟨0x0608, snap.chB⟩]
  else snap.wl.take snap.wlLen.toNat

/-- R143: an entry passes validation. -/
def entryGood (e : TxEntry) : Prop := e.addr ≠ 0xFFFF#16 ∧ e.value.toNat ≤ 1023

/-- R145: the byte write of one half of an entry: register and byte. -/
def halfWrite (e : TxEntry) : Half → RegAddr × Byte
  | .lo => (e.addr, BitVec.ofNat 8 (e.value.toNat % 256))
  | .hi => (e.addr + 1, BitVec.ofNat 8 (e.value.toNat / 256))

/-- R148: the byte writes of a list, in order: each entry's low byte, then its high bits. -/
def txWrites (entries : List TxEntry) : List (RegAddr × Byte) :=
  entries.flatMap fun e => [halfWrite e .lo, halfWrite e .hi]

/-- The bus record of a byte write. -/
def recordOf (dev : BitVec 7) (r : BusOutcome) (w : RegAddr × Byte) : BusRecord := ⟨dev, w.1, w.2, r⟩

/-- R41: the log entry of a byte write. -/
def entryOf (r : BusOutcome) (w : RegAddr × Byte) : LogEntry := ⟨w.1, w.2, r⟩

/-- R150: `s` after the log entries `es` were appended in order: what fits is kept, what does not sets LOG_OVF. -/
def logged (s : State) (es : List LogEntry) : State :=
  { s with
    log := s.log ++ es.take (s.params.logDepth - s.log.length)
    logOvf := s.logOvf || decide (s.params.logDepth < s.log.length + es.length) }

/-- R20: how many low bits of a written word a register stores, for the RW registers. -/
def rwBits (wlDepth off : Nat) : Option Nat :=
  if off = 0x004 then some 1
  else if off ∈ [0x018, 0x01C, 0x020, 0x024, 0x038, 0x048] then some 16
  else if off ∈ [0x028, 0x02C] then some 32
  else if off = 0x03C then some 7
  else if off = 0x040 then some 8
  else if off % 4 = 0 ∧ 0x080 ≤ off ∧ off < 0x080 + 4 * wlDepth then some 32
  else none

/-- R20, R23, R29 to R32, R35 to R37, R39, R44: `s` with the RW register at `off` written: its named fields take their bits of `v`,
the low field from bit 0 up and the high one from bit 16 up; from 0x080 up stand the entries of WL. -/
def stored (s : State) (off : Nat) (v : Word) : State :=
  let lo : BitVec 16 := BitVec.ofNat 16 v.toNat
  let hi : BitVec 16 := BitVec.ofNat 16 (v.toNat / 2 ^ 16)
  if off = 0x004 then { s with regs := { s.regs with src := BitVec.ofNat 1 v.toNat } }
  else if off = 0x018 then { s with regs := { s.regs with chR := lo } }
  else if off = 0x01C then { s with regs := { s.regs with chG := lo } }
  else if off = 0x020 then { s with regs := { s.regs with chB := lo } }
  else if off = 0x024 then { s with regs := { s.regs with tpeValue := lo } }
  else if off = 0x028 then { s with regs := { s.regs with frameW := lo, frameH := hi } }
  else if off = 0x02C then { s with regs := { s.regs with rowY0 := lo, rowY1 := hi } }
  else if off = 0x038 then { s with regs := { s.regs with settleMs := lo } }
  else if off = 0x03C then { s with regs := { s.regs with devAddr := BitVec.ofNat 7 v.toNat } }
  else if off = 0x040 then { s with regs := { s.regs with wlLen := BitVec.ofNat 8 v.toNat } }
  else if off = 0x048 then { s with logSel := lo }
  else { s with regs := { s.regs with wl := s.regs.wl.set ((off - 0x080) / 4) ⟨lo, hi⟩ } }

/-- R125: the known answer `a` is the one to a request (x, y, c). -/
def answers (a : ExtSample) (x y : BitVec 16) (c : Channel) : Prop := a.x = x ∧ a.y = y ∧ a.ch = c

/-- R20, R21: the offsets a write has no effect at: the RO registers but STATUS, and the reserved offsets. -/
def writeIgnored (wlDepth off : Nat) : Prop :=
  off ∈ [0x000, 0x010, 0x014, 0x030, 0x034, 0x044, 0x04C, 0x050] ∨ (0x054 ≤ off ∧ off < 0x080) ∨ 0x080 + 4 * wlDepth ≤ off

/-- R182: the causes each command can end with, but ILLEGAL_CMD, which belongs to words that are no command. -/
def causesOf : Instr → List Cause
  | .nop => [.ok]
  | .logClear => [.ok]
  | .pack _ => [.ok, .validationRange]
  | .unpack _ _ => [.ok]
  | .rescale _ => [.ok]
  | .route _ _ => [.ok]
  | .pixel _ _ => [.ok, .validationRange]
  | .stream => [.ok, .validationRange, .validationDim]
  | .seqList => [.ok, .validationRange, .validationPair, .validationLen, .busError]
  | .seqTp => [.ok, .validationRange, .busError]

/-- R189: the most engine turns an accepted command takes. -/
def turnBound (cw : Word) (snap : OperandRegs) : Nat :=
  if cw = 0x22 then snap.frameW.toNat * (snap.rowY1.toNat - snap.rowY0.toNat) + 1
  else if cw = 0x30 then 3 * snap.wlLen.toNat + 1
  else if cw = 0x31 then 3 * 5 + 1
  else 1

end Sys2Proof.Claims

open Sys2Proof Sys2Proof.Machine Sys2Proof.Claims

/-! ## Encoding -/

/-- R81, R83, R84: every command, with every operand, is read back from its word. -/
def Obligations.DecodeOfEncode : Prop := ∀ i : Instr, decode (encode i) = .ok i

/-- R80, R84: a word that decodes to a command is that command's only word: no bit of it is dropped. -/
def Obligations.EncodeOfDecode : Prop := ∀ (cw : Word) (i : Instr), decode cw = .ok i → encode i = cw

/-- R84, R85: the words rejected are exactly the illegal ones of R85. -/
def Obligations.RejectedWordsAreTheIllegalOnes : Prop :=
  ∀ cw : Word, (∃ e, decode cw = .error e) ↔ illegalWord cw

/-- R85: an illegal word is accepted by an Idle engine like any command, and its one engine step completes it with
ILLEGAL_CMD, ERRINFO = 0, LAST_OP = cw[7:0] and no other change. Which source function the word is given, and how commands are
counted for it, are the model's own (log 5) and left open here. -/
def Obligations.IllegalWordCompletesWithIllegalCmd : Prop :=
  ∀ (s : State) (cw : Word), illegalWord cw →
    (∀ rest, s.engine = .idle → s.script = .write 4 0x00C cw :: rest →
      ∃ ext n, step s = .next { s with script := rest, engine := .busy cw s.regs ext .start, accepted := n }) ∧
    endsIllegal cw (BitVec.ofNat 8 cw.toNat)

/-- R89: the encoding examples, from the line of assembly to the word and back. -/
def Obligations.EncodingExamplesOfTheSpec : Prop :=
  (∀ p ∈ [(Asm.nop, 0x00000000#32), (.logClear, 0x00000001#32), (.pack 1023, 0x03FF0010#32), (.pack 1024, 0x04000010#32),
      (.unpack 0xFF 0x03, 0x03FF0011#32), (.rescale 128, 0x00800012#32), (.route 1 0, 0x00000120#32),
      (.route 0 1, 0x00100020#32), (.route 4095 4095, 0xFFFFFF20#32), (.pixel 3 1, 0x00100321#32),
      (.stream, 0x00000022#32), (.seqList, 0x00000030#32), (.seqTp, 0x00000031#32)],
    p.1.assemble.map encode = some p.2 ∧ some (decode p.2) = p.1.assemble.map Except.ok) ∧
  decode 0x00000110#32 = .error .reservedBits

/-- R81, R87: the word of every line of assembly, in numbers; an operand outside its field's range is an assembly error, never
truncated. -/
def Obligations.AssembledWordsInNumbers : Prop :=
  (∀ v, (Asm.pack v).assemble.map (fun i => (encode i).toNat) =
      if v ≤ 0xFFFF then some (v * 2 ^ 16 + 0x10) else none) ∧
  (∀ l m, (Asm.unpack l m).assemble.map (fun i => (encode i).toNat) =
      if l ≤ 0xFF ∧ m ≤ 0xFF then some (m * 2 ^ 24 + l * 2 ^ 16 + 0x11) else none) ∧
  (∀ v, (Asm.rescale v).assemble.map (fun i => (encode i).toNat) =
      if v ≤ 255 then some (v * 2 ^ 16 + 0x12) else none) ∧
  (∀ x y, (Asm.route x y).assemble.map (fun i => (encode i).toNat) =
      if x ≤ 4095 ∧ y ≤ 4095 then some (y * 2 ^ 20 + x * 2 ^ 8 + 0x20) else none) ∧
  (∀ x y, (Asm.pixel x y).assemble.map (fun i => (encode i).toNat) =
      if x ≤ 4095 ∧ y ≤ 4095 then some (y * 2 ^ 20 + x * 2 ^ 8 + 0x21) else none) ∧
  Asm.nop.assemble.map (fun i => (encode i).toNat) = some 0x00 ∧
  Asm.logClear.assemble.map (fun i => (encode i).toNat) = some 0x01 ∧
  Asm.stream.assemble.map (fun i => (encode i).toNat) = some 0x22 ∧
  Asm.seqList.assemble.map (fun i => (encode i).toNat) = some 0x30 ∧
  Asm.seqTp.assemble.map (fun i => (encode i).toNat) = some 0x31

/-- R88: the pseudo-instructions of the host syntax and their expansions, for operands in range. -/
def Obligations.HostPseudoInstructionsExpand : Prop :=
  (∀ r g b, r < 2 ^ 32 → g < 2 ^ 32 → b < 2 ^ 32 → (HostOp.setrgb r g b).turns =
      some [.write 4 0x018 (BitVec.ofNat 32 r), .write 4 0x01C (BitVec.ofNat 32 g), .write 4 0x020 (BitVec.ofNat 32 b)]) ∧
  (∀ a v, a < 2 ^ 16 → v < 2 ^ 16 → (HostOp.seqPair a v).turns =
      some [.write 4 0x080 (BitVec.ofNat 32 (v <<< 16 ||| a)), .write 4 0x040 1, .write 4 0x00C 0x30]) ∧
  (∀ w h, w < 2 ^ 16 → h < 2 ^ 16 → (HostOp.frame w h).turns =
      some [.write 4 0x028 (BitVec.ofNat 32 (h <<< 16 ||| w)), .write 4 0x02C (BitVec.ofNat 32 (h <<< 16))]) ∧
  (∀ y0 y1, y0 < 2 ^ 16 → y1 < 2 ^ 16 → (HostOp.rows y0 y1).turns =
      some [.write 4 0x02C (BitVec.ofNat 32 (y1 <<< 16 ||| y0))])

/-! ## Steps -/

/-- R47, R84: when the engine is Busy with a word that decodes to `i` and the coming turn is the engine's, the step is `exec i`. -/
def Obligations.StepRunsTheDecodedCommand : Prop :=
  ∀ (s : State) cw snap ext ph i, s.engine = .busy cw snap ext ph → decode cw = .ok i →
    (s.script = [] → step s = exec i s) ∧
    (∀ rest, s.script = .engine :: rest → step s = exec i { s with script := rest })

/-- R199: between commands the block is Idle and keeps all state. -/
def Obligations.IdleEngineKeepsAllState : Prop :=
  ∀ s : State, s.engine = .idle →
    (s.script = [] → step s = .next s) ∧
    (∀ rest, s.script = .engine :: rest → step s = .next { s with script := rest })

/-- The model's account of how a command comes to run next (log 3): the state with a word placed, whatever the engine held, is one
whose next step is that command's Start step, with the operand CSRs as its snapshot. -/
def Obligations.PlacedCommandRunsNext : Prop :=
  ∀ (s : State) (cw : Word) i, decode cw = .ok i →
    step (s.withFetchWord 32 cw.toNat) =
      exec i { s with engine := .busy cw s.regs ⟨s.extTable, s.accepted⟩ .start, accepted := s.accepted + 1 }

/-! ## Control commands -/

/-- R170: NOP, word 0x00000000, does nothing but complete; with cw[31:8] not 0 the word is illegal. -/
def Obligations.NopOnlyCompletes : Prop :=
  (∀ (s : State) snap ext, s.engine = .busy 0x00000000#32 snap ext .start →
    decode 0x00000000#32 = .ok .nop ∧ exec .nop s = .next (ended s .ok ⟨0, 0, 0⟩ 0x00)) ∧
  reservedIllegalN 0x00

/-- R171: LOG_CLEAR, word 0x00000001, empties the log and clears LOG_OVF; after it LOG_COUNT reads 0 and LOG_ENTRY reads 0
for every LOG_SEL. With cw[31:8] not 0 the word is illegal. -/
def Obligations.LogClearEmptiesTheLog : Prop :=
  (∀ (s : State) snap ext, s.engine = .busy 0x00000001#32 snap ext .start →
    decode 0x00000001#32 = .ok .logClear ∧
    ∃ t, t = { ended s .ok ⟨0, 0, 0⟩ 0x01 with log := [], logOvf := false } ∧ exec .logClear s = .next t ∧
      memRead t 0x044 = 0 ∧ ∀ sel, memRead { t with logSel := sel } 0x04C = 0) ∧
  reservedIllegalN 0x01

/-! ## Codec commands -/

/-- R100, R101: PACK of the 16-bit value v = cw[31:16]: DOUT gets SAMPLE = v, LSB = v mod 256, MSB = v / 256, SITE = CH = 0;
a value above 1023 ends with VALIDATION_RANGE and DOUT unchanged; nonzero cw[15:8] is illegal. -/
def Obligations.PackResult : Prop :=
  (∀ (s : State) (cw : Word) (v : Raw16) snap ext, cw.toNat = v.toNat * 2 ^ 16 + 0x10 →
    s.engine = .busy cw snap ext .start →
    decode cw = .ok (.pack v) ∧
    (v.toNat ≤ 1023 →
      exec (.pack v) s = .next { ended s .ok ⟨0, 0, 0⟩ 0x10 with dout := doutOf 0 0 v.toNat }) ∧
    (1023 < v.toNat → exec (.pack v) s = .next (ended s .validationRange ⟨0, 0, 0⟩ 0x10))) ∧
  (∀ cw : Word, cw.toNat % 256 = 0x10 → cw.toNat / 256 % 256 ≠ 0 → endsIllegal cw 0x10)

/-- R103: UNPACK of lsb = cw[23:16] and msb = cw[31:24]: SAMPLE = (msb mod 4) * 256 + lsb, and DOUT.MSB = msb mod 4; nonzero
cw[15:8] is illegal. -/
def Obligations.UnpackResult : Prop :=
  (∀ (s : State) (cw : Word) (l m : Byte) snap ext, cw.toNat = m.toNat * 2 ^ 24 + l.toNat * 2 ^ 16 + 0x11 →
    s.engine = .busy cw snap ext .start →
    decode cw = .ok (.unpack l m) ∧
    exec (.unpack l m) s = .next { ended s .ok ⟨0, 0, 0⟩ 0x11 with
      dout := ⟨0, 0, BitVec.ofNat 10 (m.toNat % 4 * 256 + l.toNat), BitVec.ofNat 8 (m.toNat % 4), l⟩ }) ∧
  (∀ cw : Word, cw.toNat % 256 = 0x11 → cw.toNat / 256 % 256 ≠ 0 → endsIllegal cw 0x11)

/-- R105: RESCALE of v8 = cw[23:16]: SAMPLE = (v8 * 1023 + 127) / 255, the formula (conflict C1, log 15); nonzero cw[15:8] or
cw[31:24] is illegal. -/
def Obligations.RescaleResult : Prop :=
  (∀ (s : State) (cw : Word) (v8 : Byte) snap ext, cw.toNat = v8.toNat * 2 ^ 16 + 0x12 →
    s.engine = .busy cw snap ext .start →
    decode cw = .ok (.rescale v8) ∧
    exec (.rescale v8) s = .next { ended s .ok ⟨0, 0, 0⟩ 0x12 with
      dout := doutOf 0 0 ((v8.toNat * 1023 + 127) / 255) }) ∧
  (∀ cw : Word, cw.toNat % 256 = 0x12 → (cw.toNat / 256 % 256 ≠ 0 ∨ cw.toNat / 2 ^ 24 ≠ 0) →
    endsIllegal cw 0x12)

/-- R102: unpack is total and is ((msb & 3) << 8) | lsb; unpack(pack(v)) = v for every sample, and pack(unpack(l, m)) =
(l, m & 3) for every pair of bytes. -/
def Obligations.PackAndUnpackAreInverse : Prop :=
  (∀ l m : Byte, (unpack l m).toNat = m.toNat % 4 * 256 + l.toNat) ∧
  (∀ v : Sample10, unpack (packLsb v) (packMsb v) = v) ∧
  (∀ l m : Byte, packLsb (unpack l m) = l ∧ (packMsb (unpack l m)).toNat = m.toNat % 4)

/-- R104: rescale8to10 is its formula, which gives 514 at 128 (conflict C1, log 15); it is strictly increasing, maps 0 to 0 and 255 to 1023, and gives the integer nearest to v8 * 1023 / 255,
never at a tie: twice its distance from 255 times the result is below 255. -/
def Obligations.RescaleIsMonotoneAndNearest : Prop :=
  (∀ a b : Byte, a < b → rescale8to10 a < rescale8to10 b) ∧
  rescale8to10 0 = 0 ∧ rescale8to10 128 = 514 ∧ rescale8to10 255 = 1023 ∧
  (∀ v : Byte, (rescale8to10 v).toNat = (v.toNat * 1023 + 127) / 255) ∧
  (∀ v : Byte, 2 * (255 * (rescale8to10 v).toNat) < 2 * (v.toNat * 1023) + 255 ∧
    2 * (v.toNat * 1023) < 2 * (255 * (rescale8to10 v).toNat) + 255)

/-! ## Bayer router commands -/

/-- R120, R121: ROUTE of X = cw[19:8] and Y = cw[31:20]: DOUT gets the channel and site of the parities, and 0 elsewhere. -/
def Obligations.RouteResult : Prop :=
  ∀ (s : State) (cw : Word) (x y : Coord12) snap ext, cw.toNat = y.toNat * 2 ^ 20 + x.toNat * 2 ^ 8 + 0x20 →
    s.engine = .busy cw snap ext .start →
    decode cw = .ok (.route x y) ∧
    exec (.route x y) s = .next { ended s .ok ⟨0, 0, 0⟩ 0x20 with
      dout := ⟨siteCode x.toNat y.toNat, chanCode x.toNat y.toNat, 0, 0, 0⟩ }

/-- R122 to R124, R126: PIXEL: the value of the one pixel, from the snapshot's channel register in uniform mode or from the
source of the command; above 1023 it ends with VALIDATION_RANGE and DOUT unchanged. -/
def Obligations.PixelResult : Prop :=
  ∀ (s : State) (cw : Word) (x y : Coord12) snap ext, cw.toNat = y.toNat * 2 ^ 20 + x.toNat * 2 ^ 8 + 0x21 →
    s.engine = .busy cw snap ext .start →
    decode cw = .ok (.pixel x y) ∧
    (pixelRaw snap ext x.toNat y.toNat ≤ 1023 →
      exec (.pixel x y) s = .next { ended s .ok ⟨0, 0, 0⟩ 0x21 with
        dout := doutOf (siteCode x.toNat y.toNat) (chanCode x.toNat y.toNat) (pixelRaw snap ext x.toNat y.toNat) }) ∧
    (1023 < pixelRaw snap ext x.toNat y.toNat →
      exec (.pixel x y) s = .next (ended s .validationRange ⟨0, 0, 0⟩ 0x21))

/-- R127: the Start step of STREAM: the dimension checks, then the value checks; then POS = (0, Y0) and PIX_COUNT = 0, and the
command completes if its range is empty, or stands before pixel (0, Y0). With cw[31:8] not 0 the word is illegal. -/
def Obligations.StreamValidatesBeforeEmitting : Prop :=
  reservedIllegalN 0x22 ∧
  ∀ (s : State) snap ext, s.engine = .busy 0x00000022#32 snap ext .start →
    decode 0x00000022#32 = .ok .stream ∧
    (dimBad s.params.maxDim snap → exec .stream s = .next (ended s .validationDim ⟨0, 0, 0⟩ 0x22)) ∧
    (¬ dimBad s.params.maxDim snap → valueBad snap ext →
      exec .stream s = .next (ended s .validationRange ⟨0, 0, 0⟩ 0x22)) ∧
    (¬ dimBad s.params.maxDim snap → ¬ valueBad snap ext → snap.frameW = 0#16 ∨ snap.rowY0 = snap.rowY1 →
      exec .stream s = .next { ended s .ok ⟨0, 0, 0⟩ 0x22 with posX := 0, posY := snap.rowY0, pixCount := 0 }) ∧
    (¬ dimBad s.params.maxDim snap → ¬ valueBad snap ext → snap.frameW ≠ 0#16 → snap.rowY0 ≠ snap.rowY1 →
      exec .stream s = .next { s with
        engine := .busy 0x22 snap ext (.streamEmit 0 snap.rowY0.toNat), posX := 0, posY := snap.rowY0, pixCount := 0 })

/-- R128: the StreamEmit(x, y) step: two bytes, low byte first, PIX_COUNT + 1, POS the next pixel in row-major order, and
completion after the last pixel of row Y1 - 1. -/
def Obligations.StreamEmitsOnePixelAStep : Prop :=
  ∀ (s : State) snap ext (x y x' y' : Nat), s.engine = .busy 0x00000022#32 snap ext (.streamEmit x y) →
    pixelRaw snap ext x y ≤ 1023 →
    (x', y') = (if x + 1 < snap.frameW.toNat then (x + 1, y) else (0, y + 1)) →
    ∃ t, t = { s with pixOut := s.pixOut ++ sampleBytes (pixelRaw snap ext x y), pixCount := s.pixCount + 1,
                      posX := BitVec.ofNat 16 x', posY := BitVec.ofNat 16 y' } ∧
      (y' = snap.rowY1.toNat → exec .stream s = .next (ended t .ok ⟨0, 0, 0⟩ 0x22)) ∧
      (y' ≠ snap.rowY1.toNat →
        exec .stream s = .next { t with engine := .busy 0x22 snap ext (.streamEmit x' y') })

/-- R61, R128, R129: a STREAM that passes validation, left to run, emits exactly the bytes of its rows, row-major, and ends
after W * (Y1 - Y0) + 1 engine steps with cause 0, PIX_COUNT = W * (Y1 - Y0) and POS = (0, Y1), or (0, Y0) for W = 0. -/
def Obligations.StreamEmitsItsWholeRange : Prop :=
  ∀ (s : State) snap ext, s.script = [] → s.engine = .busy 0x00000022#32 snap ext .start →
    ¬ dimBad s.params.maxDim snap → ¬ valueBad snap ext →
    runsTo (snap.frameW.toNat * (snap.rowY1.toNat - snap.rowY0.toNat) + 1) s
      { ended s .ok ⟨0, 0, 0⟩ 0x22 with
        pixOut := s.pixOut ++ frameBytes snap.frameW.toNat snap.rowY0.toNat snap.rowY1.toNat (pixelRaw snap ext)
        pixCount := BitVec.ofNat 32 (snap.frameW.toNat * (snap.rowY1.toNat - snap.rowY0.toNat))
        posX := 0
        posY := if snap.frameW = 0#16 then snap.rowY0 else snap.rowY1 }

/-- R130: with the same source, width and values, the stream of rows [Y0, k) followed by the stream of [k, Y1) emits what the
stream of [Y0, Y1) emits. -/
def Obligations.StreamsOfRowRangesConcatenate : Prop :=
  ∀ (s s1 s2 : State) (snap : OperandRegs) ext (k : BitVec 16), snap.rowY0 ≤ k → k ≤ snap.rowY1 →
    s.script = [] → s1.script = [] → s2.script = [] → s1.params = s.params → s2.params = s.params →
    s.engine = .busy 0x00000022#32 snap ext .start →
    s1.engine = .busy 0x00000022#32 { snap with rowY1 := k } ext .start →
    s2.engine = .busy 0x00000022#32 { snap with rowY0 := k } ext .start →
    ¬ dimBad s.params.maxDim snap → ¬ valueBad snap ext →
    ∃ n t n1 t1 n2 t2 b1 b2, runsTo n s t ∧ runsTo n1 s1 t1 ∧ runsTo n2 s2 t2 ∧
      t.engine = .idle ∧ t1.engine = .idle ∧ t2.engine = .idle ∧ t.cause = .ok ∧ t1.cause = .ok ∧ t2.cause = .ok ∧
      t1.pixOut = s1.pixOut ++ b1 ∧ t2.pixOut = s2.pixOut ++ b2 ∧ t.pixOut = s.pixOut ++ (b1 ++ b2)

/-- R131: the bytes of a full-frame STREAM are the frame's raw file: 2 * W * H bytes, and the sample decoded from bytes 2i and
2i + 1 is the value of pixel (i mod W, i / W), with the six high bits of the second byte 0. -/
def Obligations.FullFrameStreamIsTheRawFile : Prop :=
  ∀ (s : State) snap ext, s.script = [] → s.engine = .busy 0x00000022#32 snap ext .start →
    snap.rowY0 = 0 → snap.rowY1 = snap.frameH → ¬ dimBad s.params.maxDim snap → ¬ valueBad snap ext →
    ∃ n t b, runsTo n s t ∧ t.engine = .idle ∧ t.cause = .ok ∧ t.pixOut = s.pixOut ++ b ∧
      b.length = 2 * (snap.frameW.toNat * snap.frameH.toNat) ∧
      ∀ i, i < snap.frameW.toNat * snap.frameH.toNat → ∃ l m : Byte, b[2 * i]? = some l ∧ b[2 * i + 1]? = some m ∧
        (unpack l m).toNat = pixelRaw snap ext (i % snap.frameW.toNat) (i / snap.frameW.toNat) ∧ m.toNat < 4

/-! ## Sequencer commands -/

/-- R143, R144, R153, R154: the Start step of SEQ_LIST: WL_LEN above WL_DEPTH first, then the first bad entry in index order,
the pair check before the range check; an empty list completes, any other enters SeqWrite(0, Lo). With cw[31:8] not 0 the
word is illegal. -/
def Obligations.SeqListStart : Prop :=
  reservedIllegalN 0x30 ∧
  ∀ (s : State) snap ext, s.engine = .busy 0x00000030#32 snap ext .start →
    decode 0x00000030#32 = .ok .seqList ∧
    (s.params.wlDepth < snap.wlLen.toNat → exec .seqList s = .next (ended s .validationLen ⟨0, 0, 0⟩ 0x30)) ∧
    (snap.wlLen.toNat ≤ s.params.wlDepth →
      (∀ (j : Nat) (e : TxEntry), (seqEntries false snap)[j]? = some e →
        (∀ (k : Nat) (e' : TxEntry), k < j → (seqEntries false snap)[k]? = some e' → entryGood e') →
        (e.addr = 0xFFFF#16 → exec .seqList s = .next (ended s .validationPair ⟨0xFFFF, 0, BitVec.ofNat 8 j⟩ 0x30)) ∧
        (e.addr ≠ 0xFFFF#16 → 1023 < e.value.toNat →
          exec .seqList s = .next (ended s .validationRange ⟨0, 0, BitVec.ofNat 8 j⟩ 0x30))) ∧
      (seqEntries false snap = [] → exec .seqList s = .next (ended s .ok ⟨0, 0, 0⟩ 0x30)) ∧
      ((∀ e ∈ seqEntries false snap, entryGood e) → seqEntries false snap ≠ [] →
        exec .seqList s = .next { s with engine := .busy 0x30 snap ext (.seqWrite 0 .lo) }))

/-- R144, R155, R156: the Start step of SEQ_TP: TPE_VALUE, CH_R, CH_G, CH_B are checked in that order, at list indexes 0, 1, 2
and 4; with all four in range it enters SeqWrite(0, Lo). With cw[31:8] not 0 the word is illegal. -/
def Obligations.SeqTpStart : Prop :=
  reservedIllegalN 0x31 ∧
  ∀ (s : State) snap ext, s.engine = .busy 0x00000031#32 snap ext .start →
    decode 0x00000031#32 = .ok .seqTp ∧
    exec .seqTp s = .next
      (if 1023 < snap.tpeValue.toNat then ended s .validationRange ⟨0, 0, 0⟩ 0x31
       else if 1023 < snap.chR.toNat then ended s .validationRange ⟨0, 0, 1⟩ 0x31
       else if 1023 < snap.chG.toNat then ended s .validationRange ⟨0, 0, 2⟩ 0x31
       else if 1023 < snap.chB.toNat then ended s .validationRange ⟨0, 0, 4⟩ 0x31
       else { s with engine := .busy 0x31 snap ext (.seqWrite 0 .lo) })

/-- R145, R150, R151: the SeqWrite(i, half) step of SEQ_LIST and SEQ_TP: one byte write at address_lsb or address_lsb + 1 and one
log entry. If the bus answers OK the next phase follows; if it answers FAIL(t) the transaction ends with BUS_ERROR: ERR_ADDR
the register, TRANSPORT = t, ERR_INDEX the entry (the known answers of the bus are the model's own, log 4). -/
def Obligations.SeqWriteStep : Prop :=
  ∀ (tp : Bool) (s : State) snap ext (i : Nat) (half : Half) (e : TxEntry),
    s.engine = .busy (seqWord tp) snap ext (.seqWrite i half) → (seqEntries tp snap)[i]? = some e →
    e.value.toNat ≤ 1023 → s.log.length ≤ s.params.logDepth →
    (busOutcome s = .ok →
      exec (seqInstr tp) s = .next { logged s [entryOf .ok (halfWrite e half)] with
        busHistory := s.busHistory ++ [recordOf snap.devAddr .ok (halfWrite e half)]
        busAnswers := s.busAnswers.tail
        engine := .busy (seqWord tp) snap ext (match half with | .lo => .seqWrite i .hi | .hi => .seqSettle i) }) ∧
    (∀ k : Fin 15, busOutcome s = .fail k →
      exec (seqInstr tp) s = .next { logged s [entryOf (.fail k) (halfWrite e half)] with
        busHistory := s.busHistory ++ [recordOf snap.devAddr (.fail k) (halfWrite e half)]
        busAnswers := s.busAnswers.tail
        engine := .idle
        cause := .busError
        errInfo := ⟨(halfWrite e half).1, BitVec.ofNat 4 (k.val + 1), BitVec.ofNat 8 i⟩
        lastOp := (if tp then 0x31 else 0x30)
        doneCnt := s.doneCnt + 1 })

/-- R149: the SeqSettle(i) step: the next pair, or completion after the last; the model's account of time gains SETTLE_MS
(its lower bound on time is the model's own, log 8). -/
def Obligations.SeqSettleStep : Prop :=
  ∀ (tp : Bool) (s : State) snap ext (i : Nat), s.engine = .busy (seqWord tp) snap ext (.seqSettle i) →
    i < (seqEntries tp snap).length →
    exec (seqInstr tp) s = .next
      (if i + 1 < (seqEntries tp snap).length then
        { s with waitedMs := s.waitedMs + snap.settleMs.toNat
                 engine := .busy (seqWord tp) snap ext (.seqWrite (i + 1) .lo) }
       else { ended s .ok ⟨0, 0, 0⟩ (if tp then 0x31 else 0x30) with
                 waitedMs := s.waitedMs + snap.settleMs.toNat })

/-- R148, R149, R150, R152: a transaction of n valid entries whose 2n writes all answer OK, left to run, makes exactly those
writes in order, logs each, waits the settle delay after every pair, and ends after 3n + 1 engine steps with cause 0. -/
def Obligations.TransactionWritesItsWholeList : Prop :=
  ∀ (tp : Bool) (s : State) snap ext rest, s.script = [] → s.engine = .busy (seqWord tp) snap ext .start →
    (tp = false → snap.wlLen.toNat ≤ s.params.wlDepth) → (∀ e ∈ seqEntries tp snap, entryGood e) →
    s.log.length ≤ s.params.logDepth →
    s.busAnswers = List.replicate (2 * (seqEntries tp snap).length) .ok ++ rest →
    runsTo (3 * (seqEntries tp snap).length + 1) s
      { logged (ended s .ok ⟨0, 0, 0⟩ (if tp then 0x31 else 0x30))
          ((txWrites (seqEntries tp snap)).map (entryOf .ok)) with
        busHistory := s.busHistory ++ (txWrites (seqEntries tp snap)).map (recordOf snap.devAddr .ok)
        busAnswers := rest
        waitedMs := s.waitedMs + (seqEntries tp snap).length * snap.settleMs.toNat }

/-- R148, R150, R151: a transaction whose first k writes answer OK and whose next one answers FAIL(t) makes just those k + 1
writes, logs each, and ends with BUS_ERROR at the entry of write k. -/
def Obligations.TransactionAbortsAtTheFirstFailure : Prop :=
  ∀ (tp : Bool) (s : State) snap ext rest (k : Nat) (c : Fin 15) (w : RegAddr × Byte),
    s.script = [] → s.engine = .busy (seqWord tp) snap ext .start →
    (tp = false → snap.wlLen.toNat ≤ s.params.wlDepth) → (∀ e ∈ seqEntries tp snap, entryGood e) →
    s.log.length ≤ s.params.logDepth →
    (txWrites (seqEntries tp snap))[k]? = some w →
    s.busAnswers = List.replicate k .ok ++ .fail c :: rest →
    runsTo (k + k / 2 + 2) s
      { logged (ended s .busError ⟨w.1, BitVec.ofNat 4 (c.val + 1), BitVec.ofNat 8 (k / 2)⟩ (if tp then 0x31 else 0x30))
          (((txWrites (seqEntries tp snap)).take k).map (entryOf .ok) ++ [entryOf (.fail c) w]) with
        busHistory := s.busHistory ++ (((txWrites (seqEntries tp snap)).take k).map (recordOf snap.devAddr .ok) ++
          [recordOf snap.devAddr (.fail c) w])
        busAnswers := rest
        waitedMs := s.waitedMs + k / 2 * snap.settleMs.toNat }

/-! ## The host's side -/

/-- R188: a CMD write of any word is accepted with a snapshot of the operand CSRs while the engine is Idle, and lost, with
REJ = 1 and nothing else changed, while it is Busy. Which source function the command is given, and how commands are counted
for it, are the model's own (log 5) and left open here. -/
def Obligations.CmdWriteIsAcceptedOrRejected : Prop :=
  ∀ (s : State) (v : Word) rest, s.script = .write 4 0x00C v :: rest →
    (s.engine = .idle →
      ∃ ext n, step s = .next { s with script := rest, engine := .busy v s.regs ext .start, accepted := n }) ∧
    (s.engine ≠ .idle → step s = .next { s with script := rest, rej := true })

/-- R125, R49, in the model's form (log 5): a command takes the source's present answers when it is accepted, with a number of its
own for the answers that are not known, and a change of the source afterwards changes nothing else. To a request the source of a
command answers the value first listed for it, and where none is listed the free value of its number. -/
def Obligations.SourceIsTakenAtAcceptance : Prop :=
  ∀ s : State,
    (∀ (v : Word) rest, s.script = .write 4 0x00C v :: rest → s.engine = .idle →
      ∃ t, step s = .next t ∧ t.engine = .busy v s.regs ⟨s.extTable, s.accepted⟩ .start ∧ t.accepted = s.accepted + 1) ∧
    (∀ table rest, s.script = .source table :: rest → step s = .next { s with script := rest, extTable := table }) ∧
    (∀ (before after : List ExtSample) (a : ExtSample) (n : Nat) (x y : BitVec 16) (c : Channel), answers a x y c →
      (∀ b ∈ before, ¬ answers b x y c) → extSrc ⟨before ++ a :: after, n⟩ x.toNat y.toNat c = a.value) ∧
    (∀ (table : List ExtSample) (n : Nat) (x y : BitVec 16) (c : Channel), (∀ b ∈ table, ¬ answers b x y c) →
      extSrc ⟨table, n⟩ x.toNat y.toNat c =
        Config.freePixel n x y (match c with | .r => 0 | .g => 1 | .b => 2))

/-- R88, in the model's form (log 21): a poll reads STATUS once; while BUSY = 1 the engine gets a turn and the poll comes again. -/
def Obligations.PollReadsStatusAgainWhileBusy : Prop :=
  ∀ (s : State) rest, s.script = .poll :: rest →
    (s.engine = .idle → step s = .next { s with script := rest, hostReads := s.hostReads ++ [memRead s 0x008] }) ∧
    (s.engine ≠ .idle → step s = .next { s with script := .engine :: .poll :: rest
                                                hostReads := s.hostReads ++ [memRead s 0x008] })

/-- R25: a write of v to STATUS clears REJ if v[3] = 1, and changes nothing else. -/
def Obligations.StatusWriteOnlyClearsRej : Prop :=
  ∀ (s : State) (v : Word) rest, s.script = .write 4 0x008 v :: rest →
    step s = .next { s with script := rest, rej := if v.toNat / 8 % 2 = 1 then false else s.rej }

/-- R24, R47: the STATUS word as a sum of its fields, with BUSY, BUS_OWNED and STREAM_ACTIVE read off the engine's phase. -/
def Obligations.StatusWordFields : Prop :=
  ∀ s : State, ∃ busy owned streaming causeCode : Nat,
    (busy = 1 ∧ s.engine ≠ .idle ∨ busy = 0 ∧ s.engine = .idle) ∧
    (owned = 1 ∧ (∃ cw snap ext i, (∃ h, s.engine = .busy cw snap ext (.seqWrite i h)) ∨
        s.engine = .busy cw snap ext (.seqSettle i)) ∨
      owned = 0 ∧ ¬ (∃ cw snap ext i, (∃ h, s.engine = .busy cw snap ext (.seqWrite i h)) ∨
        s.engine = .busy cw snap ext (.seqSettle i))) ∧
    (streaming = 1 ∧ (∃ cw snap ext x y, s.engine = .busy cw snap ext (.streamEmit x y)) ∨
      streaming = 0 ∧ ¬ ∃ cw snap ext x y, s.engine = .busy cw snap ext (.streamEmit x y)) ∧
    (s.cause, causeCode) ∈ [(Cause.ok, 0), (.validationRange, 1), (.validationDim, 2), (.validationPair, 3),
      (.validationLen, 4), (.busError, 5), (.illegalCmd, 6)] ∧
    (memRead s 0x008).toNat = busy + 2 * owned + 4 * streaming + 8 * s.rej.toNat + 16 * s.logOvf.toNat +
      2 ^ 8 * causeCode + 2 ^ 16 * s.lastOp.toNat + 2 ^ 24 * s.doneCnt.toNat

/-- R20, R21, R26 to R44: what a host read of every other offset returns, as a sum of the fields; reserved offsets read 0. -/
def Obligations.ReadsReturnTheNamedFields : Prop :=
  ∀ s : State,
    (memRead s 0x000).toNat = 0x30314752 ∧ (memRead s 0x004).toNat = s.regs.src.toNat ∧ (memRead s 0x00C).toNat = 0 ∧
    (memRead s 0x010).toNat = s.errInfo.addr.toNat + 2 ^ 16 * s.errInfo.transport.toNat + 2 ^ 20 * s.errInfo.index.toNat ∧
    (memRead s 0x014).toNat = s.dout.lsb.toNat + 2 ^ 8 * s.dout.msb.toNat + 2 ^ 16 * s.dout.sample.toNat +
      2 ^ 26 * s.dout.ch.toNat + 2 ^ 28 * s.dout.site.toNat ∧
    (memRead s 0x018).toNat = s.regs.chR.toNat ∧ (memRead s 0x01C).toNat = s.regs.chG.toNat ∧
    (memRead s 0x020).toNat = s.regs.chB.toNat ∧ (memRead s 0x024).toNat = s.regs.tpeValue.toNat ∧
    (memRead s 0x028).toNat = s.regs.frameW.toNat + 2 ^ 16 * s.regs.frameH.toNat ∧
    (memRead s 0x02C).toNat = s.regs.rowY0.toNat + 2 ^ 16 * s.regs.rowY1.toNat ∧
    (memRead s 0x030).toNat = s.posX.toNat + 2 ^ 16 * s.posY.toNat ∧ (memRead s 0x034) = s.pixCount ∧
    (memRead s 0x038).toNat = s.regs.settleMs.toNat ∧ (memRead s 0x03C).toNat = s.regs.devAddr.toNat ∧
    (memRead s 0x040).toNat = s.regs.wlLen.toNat ∧ (memRead s 0x044).toNat = s.log.length % 2 ^ 16 ∧
    (memRead s 0x048).toNat = s.logSel.toNat ∧
    (memRead s 0x050).toNat = s.params.wlDepth % 2 ^ 8 + 2 ^ 8 * (s.params.logDepth % 2 ^ 16) ∧
    (∀ i e, i < s.params.wlDepth → s.regs.wl[i]? = some e →
      (memRead s (0x080 + 4 * i)).toNat = e.addr.toNat + 2 ^ 16 * e.value.toNat) ∧
    (∀ off, off % 4 = 0 → (0x054 ≤ off ∧ off < 0x080) ∨ 0x080 + 4 * s.params.wlDepth ≤ off → memRead s off = 0)

/-- R40, R41: LOG_ENTRY shows the entry LOG_SEL selects, oldest first, in the format of R41; at or beyond the number of
entries it reads 0. -/
def Obligations.LogEntryShowsTheSelectedEntry : Prop :=
  ∀ s : State,
    (∀ e, s.log[s.logSel.toNat]? = some e → (memRead s 0x04C).toNat = e.addr.toNat + 2 ^ 16 * e.value.toNat +
      (match e.outcome with | .ok => 0 | .fail k => 2 ^ 24 + 2 ^ 28 * (k.val + 1))) ∧
    (s.log.length ≤ s.logSel.toNat → memRead s 0x04C = 0)

/-- R64, R65: an admitted host read changes no state of the block: the host gets the value, and nothing else happens. -/
def Obligations.HostReadsHaveNoSideEffect : Prop :=
  ∀ (s : State) (off : Nat) rest, s.script = .read 4 off :: rest → off % 4 = 0 → off < 0x100 →
    step s = .next { s with script := rest, hostReads := s.hostReads ++ [memRead s off] }

/-- R64: a host access that is not 4 bytes wide, not aligned, or at 0x100 or above is refused by the model. -/
def Obligations.OtherHostAccessesAreRefused : Prop :=
  ∀ (s : State) (width off : Nat) (v : Word) rest, (width ≠ 4 ∨ off % 4 ≠ 0 ∨ 0x100 ≤ off) →
    (s.script = .read width off :: rest → step s = .refused .hostAccess) ∧
    (s.script = .write width off v :: rest → step s = .refused .hostAccess)

/-- R20, R21, R29: a host write to a RW register leads on, stores the register's named fields and changes nothing else; a read
then gives the written word's low bits, and the reserved bits read 0. -/
def Obligations.WrittenRegistersReadBack : Prop :=
  ∀ (s : State) (off n : Nat) (v : Word) rest, s.regs.wl.length = s.params.wlDepth → s.params.wf = true →
    rwBits s.params.wlDepth off = some n → s.script = .write 4 off v :: rest →
    ∃ t, t = stored { s with script := rest } off v ∧ step s = .next t ∧ (memRead t off).toNat = v.toNat % 2 ^ n

/-- R20, R21, R39: a write to one register other than CMD changes no other register a host can read, but that LOG_SEL selects
what LOG_ENTRY shows. -/
def Obligations.WritesLeaveOtherRegisters : Prop :=
  ∀ (s : State) (off off' : Nat) (v : Word), off % 4 = 0 → off' % 4 = 0 → off' ≠ off → off ≠ 0x00C →
    ¬ (off = 0x048 ∧ off' = 0x04C) → memRead (memWrite s off v) off' = memRead s off'

/-- R21: a write to a RO register or a reserved offset changes no state and raises no error. -/
def Obligations.ReadOnlyWritesHaveNoEffect : Prop :=
  ∀ (s : State) (off : Nat) (v : Word) rest, off % 4 = 0 → off < 0x100 → writeIgnored s.params.wlDepth off →
    s.script = .write 4 off v :: rest → step s = .next { s with script := rest }

/-- R48, R220: the running command reads its operands only from the snapshot: with the operand CSRs, LOG_SEL and REJ changed
to anything, the same engine step leads to the same state but for those. -/
def Obligations.RunningCommandNeverSeesHostWrites : Prop :=
  ∀ (s t : State) (r : OperandRegs) (sel : BitVec 16) (b : Bool) rest, EngineNext s rest → s.engine ≠ .idle →
    step s = .next t →
    step { s with regs := r, logSel := sel, rej := b } = .next { t with regs := r, logSel := sel, rej := b }

/-! ## Reset -/

/-- R20, R51: what a host reads after reset, register by register. -/
def Obligations.ResetValuesOfTheRegisters : Prop :=
  (∀ p ∈ [(0x000, 0x30314752#32), (0x004, 0), (0x008, 0), (0x00C, 0), (0x010, 0), (0x014, 0), (0x018, 0), (0x01C, 0),
      (0x020, 0), (0x024, 1), (0x028, 0), (0x02C, 0), (0x030, 0), (0x034, 0), (0x038, 100), (0x03C, 0x10), (0x040, 0),
      (0x044, 0), (0x048, 0), (0x04C, 0), (0x050, 0x00004008#32)], memRead State.reset p.1 = p.2) ∧
  (∀ i < 8, memRead State.reset (0x080 + 4 * i) = 0) ∧
  State.reset.engine = .idle ∧ State.reset.log = []

/-- R211: the reset step, from any state of a valid instance: every CSR at its reset value (R51), the engine Idle, the log
empty; PARAM, the bus history and the bytes emitted stay. What becomes of the outside agents' side of the run is the model's
own (log 19) and left open here. -/
def Obligations.ResetStep : Prop :=
  ∀ (s : State) rest, s.params.wf = true → s.script = .reset :: rest →
    ∃ answers table n reads ms, step s = .next { State.reset with
      params := s.params
      regs := { src := 0, chR := 0, chG := 0, chB := 0, tpeValue := 1, frameW := 0, frameH := 0, rowY0 := 0, rowY1 := 0,
                settleMs := 100, devAddr := 0x10, wlLen := 0, wl := List.replicate s.params.wlDepth ⟨0, 0⟩ }
      busHistory := s.busHistory
      pixOut := s.pixOut
      script := rest
      busAnswers := answers
      extTable := table
      accepted := n
      hostReads := reads
      waitedMs := ms }

/-! ## The whole machine -/

/-- The invariant holds of the state after reset (R51). -/
def Obligations.InvariantAtReset : Prop := Invariant State.reset

/-- R7, R38, R44, R47, R143, R127, R183, R28: every step of every agent keeps the invariant. -/
def Obligations.StepKeepsTheInvariant : Prop := ∀ s t : State, Invariant s → step s = .next t → Invariant t

/-- R189, R100, R225: from a state of the invariant no step ends in a fault, and an engine turn always leads on: no unvalidated
value ever reaches pack, and the engine is never stuck. -/
def Obligations.EngineIsNeverStuck : Prop :=
  ∀ s : State, Invariant s → NoFault (step s) ∧
    (s.script = [] → ∃ t, step s = .next t) ∧ (∀ rest, s.script = .engine :: rest → ∃ t, step s = .next t)

/-- R189: an accepted command, left to run, ends within its bound: 3n + 1 engine steps for a transaction of n entries,
W * (Y1 - Y0) + 1 for a STREAM, 1 for every other word. -/
def Obligations.EveryCommandEndsWithinItsBound : Prop :=
  ∀ (s : State) cw snap ext, Invariant s → s.script = [] → s.engine = .busy cw snap ext .start →
    ∃ k t, 1 ≤ k ∧ k ≤ turnBound cw snap ∧ runsTo k s t ∧ t.engine = .idle ∧ t.doneCnt = s.doneCnt + 1

/-- R189: in every phase each engine turn brings the command nearer its end. -/
def Obligations.EveryEngineTurnMakesProgress : Prop :=
  ∀ (s : State) rest, Invariant s → EngineNext s rest → s.engine ≠ .idle →
    ∃ t, step s = .next t ∧ t.script = rest ∧ turnsLeft t < turnsLeft s

/-- R226: a host that polls STATUS sees BUSY = 0 after finitely many reads. -/
def Obligations.PollingEnds : Prop :=
  ∀ (s : State) rest, Invariant s → s.script = .poll :: rest →
    ∃ k t w, runsTo k s t ∧ t.script = rest ∧ t.engine = .idle ∧ t.hostReads.getLast? = some w ∧ w.toNat % 2 = 0

/-- R42, R211, R147, R61: no step changes the instance's parameters, takes back a bus record or an emitted byte, or adds more
than one record or one pixel. -/
def Obligations.HistoriesOnlyGrow : Prop :=
  ∀ s t : State, step s = .next t → t.params = s.params ∧
    (t.busHistory = s.busHistory ∨ ∃ r, t.busHistory = s.busHistory ++ [r]) ∧
    (t.pixOut = s.pixOut ∨ ∃ l m, t.pixOut = s.pixOut ++ [l, m])

/-- R43, R45, R39: no command writes an operand CSR, LOG_SEL or REJ: an engine turn leaves them as they are. -/
def Obligations.CommandsNeverWriteOperands : Prop :=
  ∀ (s t : State) rest, EngineNext s rest → step s = .next t → t.regs = s.regs ∧ t.logSel = s.logSel ∧ t.rej = s.rej

/-- R47, R48, R76, R125: while a command runs, nothing but its completion and reset takes its word, its snapshot or its source
function from the engine. -/
def Obligations.BusyCommandKeepsItsOperands : Prop :=
  ∀ (s t : State) cw snap ext ph, s.engine = .busy cw snap ext ph → step s = .next t →
    t.engine = .idle ∨ ∃ ph', t.engine = .busy cw snap ext ph'

/-- R146, R74, R24: only SEQ_LIST and SEQ_TP take the bus handle, in their Start step; and a byte is written to the bus only by
an engine turn that begins with the handle held. -/
def Obligations.BusHandleIsScoped : Prop :=
  ∀ s t : State, step s = .next t →
    (t.engine.ownsBus = true → s.engine.ownsBus = true ∨
      ∃ rest cw snap ext, EngineNext s rest ∧ s.engine = .busy cw snap ext .start ∧ (cw = 0x30 ∨ cw = 0x31)) ∧
    (t.busHistory ≠ s.busHistory → s.engine.ownsBus = true ∧ ∃ rest, EngineNext s rest)

/-- R46, R150, R171, R211: a step leaves the log, or appends one entry, that of the byte it wrote to the bus, or empties it by
LOG_CLEAR or by reset. -/
def Obligations.LogChangesOnlyAsItsRulesSay : Prop :=
  ∀ s t : State, step s = .next t →
    t.log = s.log ∨
    (∃ r : BusRecord, t.busHistory = s.busHistory ++ [r] ∧ s.log.length < s.params.logDepth ∧
      t.log = s.log ++ [⟨r.reg, r.byte, r.outcome⟩]) ∨
    (t.log = [] ∧ t.logOvf = false ∧
      ((∃ rest, s.script = .reset :: rest) ∨ ∃ snap ext, s.engine = .busy 0x01 snap ext .start ∧ t.engine = .idle))

/-- R28, R33, R34, R45, R61: whatever agent acts, PIX_OUT changes only by an engine turn of STREAM's StreamEmit phase; and but for
reset, DOUT changes only by an engine turn that completes PACK, UNPACK, RESCALE, ROUTE or PIXEL with cause 0, and POS and PIX_COUNT
only by an engine turn of STREAM. -/
def Obligations.OutputsAreWrittenOnlyByTheirCommands : Prop :=
  ∀ s t : State, step s = .next t →
    (t.pixOut ≠ s.pixOut →
      ∃ rest snap ext x y, EngineNext s rest ∧ s.engine = .busy 0x22 snap ext (.streamEmit x y)) ∧
    ((∀ rest, s.script ≠ .reset :: rest) →
      (t.dout ≠ s.dout → ∃ rest cw snap ext, EngineNext s rest ∧ s.engine = .busy cw snap ext .start ∧ t.engine = .idle ∧
        t.cause = .ok ∧ cw.toNat % 256 ∈ [0x10, 0x11, 0x12, 0x20, 0x21]) ∧
      (t.posX ≠ s.posX ∨ t.posY ≠ s.posY ∨ t.pixCount ≠ s.pixCount →
        ∃ rest snap ext ph, EngineNext s rest ∧ s.engine = .busy 0x22 snap ext ph))

/-- R184, R185: errors are precise: an engine turn that ends a command with any cause but OK and BUS_ERROR is the first the command
takes, its Start step, and changes nothing but the completion fields. No engine turn leads into the Start phase, so a command that
stands in it has had none since its acceptance. -/
def Obligations.ErrorsArePrecise : Prop :=
  ∀ (s t : State) cw snap ext ph rest, EngineNext s rest → s.engine = .busy cw snap ext ph → step s = .next t →
    (t.engine = .idle → t.cause ≠ .ok → t.cause ≠ .busError →
      ph = .start ∧ t = { ended s t.cause t.errInfo (BitVec.ofNat 8 cw.toNat) with script := rest }) ∧
    (∀ cw' snap' ext', t.engine ≠ .busy cw' snap' ext' .start)

/-- R182: each command ends only with a cause its row of the table names. -/
def Obligations.EachCommandEndsWithItsCauses : Prop :=
  ∀ (i : Instr) (s t : State), s.engine ≠ .idle → exec i s = .next t → t.engine = .idle → t.cause ∈ causesOf i

/-- R24, R195, R184: DONE_CNT, LAST_OP, CAUSE and ERRINFO change only at a completion, an engine turn which counts DONE_CNT by one and puts
the word's low byte in LAST_OP, and by reset. -/
def Obligations.CompletionFieldsChangeOnlyAtCompletion : Prop :=
  ∀ s t : State, step s = .next t → (∀ rest, s.script ≠ .reset :: rest) →
    (t.doneCnt = s.doneCnt ∧ t.lastOp = s.lastOp ∧ t.cause = s.cause ∧ t.errInfo = s.errInfo) ∨
    (t.doneCnt = s.doneCnt + 1 ∧ t.engine = .idle ∧ (∃ rest, EngineNext s rest) ∧
      ∃ cw snap ext ph, s.engine = .busy cw snap ext ph ∧ t.lastOp = BitVec.ofNat 8 cw.toNat)
end

