-- ==== Sys2Proof/Laws/Bits.lean ====
section
/-! SUPPORT. Fields, words and samples as numbers: the lemmas that turn the model's bit operations into arithmetic omega
reads. -/

namespace Sys2Proof.Machine

/-- A field cut out of a word, as a number. -/
theorem extractLsb'_toNat_div {w : Nat} (v : BitVec w) (lo n : Nat) :
    (v.extractLsb' lo n).toNat = v.toNat / 2 ^ lo % 2 ^ n := by
  simp [BitVec.extractLsb'_toNat, Nat.shiftRight_eq_div_pow]

/-- A concatenation, as a number. -/
theorem append_toNat_mul {n m : Nat} (a : BitVec n) (b : BitVec m) : (a ++ b).toNat = a.toNat * 2 ^ m + b.toNat := by
  rw [BitVec.toNat_append, ← Nat.shiftLeft_add_eq_or_of_lt b.isLt, Nat.shiftLeft_eq]

/-- The opcode test of `decode`, as a number. -/
theorem opcodeOf_eq_iff (cw : Word) (b : Byte) : opcodeOf cw = b ↔ cw.toNat % 256 = b.toNat := by
  rw [← BitVec.toNat_inj, opcodeOf, extractLsb'_toNat_div]; simp

/-- A field test of `decode`, as a number. -/
theorem field_eq_iff (cw : Word) (lo n : Nat) (b : BitVec n) :
    cw.extractLsb' lo n = b ↔ cw.toNat / 2 ^ lo % 2 ^ n = b.toNat := by
  rw [← BitVec.toNat_inj, extractLsb'_toNat_div]

/-- LAST_OP as a number cut from the word. -/
theorem opcodeOf_eq_ofNat (cw : Word) : opcodeOf cw = BitVec.ofNat 8 cw.toNat := by
  apply BitVec.eq_of_toNat_eq; rw [opcodeOf, extractLsb'_toNat_div]; simp

/-- R29's range check. -/
theorem outOfRange_iff (v : Raw16) : outOfRange v = true ↔ 1023 < v.toNat := by simp [outOfRange]

/-- R100: the low byte is the sample modulo 256. -/
theorem packLsb_toNat (v : Sample10) : (packLsb v).toNat = v.toNat % 256 := by
  simp [packLsb, Nat.and_two_pow_sub_one_eq_mod _ 8]

/-- R100: the high byte is the sample over 256. -/
theorem packMsb_toNat (v : Sample10) : (packMsb v).toNat = v.toNat / 256 := by
  have := v.isLt
  simp [packMsb, Nat.shiftRight_eq_div_pow, Nat.and_two_pow_sub_one_eq_mod _ 2]; omega

/-- R102: unpack as arithmetic. -/
theorem unpack_toNat (l m : Byte) : (unpack l m).toNat = m.toNat % 4 * 256 + l.toNat := by
  have hl := l.isLt
  have hm := m.isLt
  have e : (m.toNat % 4) <<< 8 ||| l.toNat = m.toNat % 4 * 2 ^ 8 + l.toNat := by
    rw [← Nat.shiftLeft_add_eq_or_of_lt hl, Nat.shiftLeft_eq]
  have h3 : m.toNat % 1024 &&& 3 = m.toNat % 4 := by
    rw [Nat.and_two_pow_sub_one_eq_mod _ 2]; omega
  have h4 : (m.toNat % 4) <<< 8 % 1024 = (m.toNat % 4) <<< 8 := by
    rw [Nat.shiftLeft_eq]; omega
  have h5 : l.toNat % 1024 = l.toNat := by omega
  simp [unpack, h3, h4, h5, e]

/-- R101, R126: v[9:0] of a value in range is the value. -/
theorem sampleOf_toNat (v : Raw16) (h : v.toNat ≤ 1023) : (sampleOf v).toNat = v.toNat := by
  rw [sampleOf, extractLsb'_toNat_div]; omega

end Sys2Proof.Machine
end

