-- ==== Sys2Proof/Laws/State.lean ====
section
/-! SUPPORT. Each primitive of Machine/Ops.lean, field by field: what it writes and what it leaves, so that no later proof
unfolds a record update. -/

namespace Sys2Proof.Machine

/-- `complete` is `finish` with cause OK. -/
@[simp] theorem complete_eq (cw : Word) (s : State) : complete cw s = finish .ok ⟨0, 0, 0⟩ cw s := rfl

/-- `raise` is `finish` with its cause and information. -/
@[simp] theorem raise_eq (c : Cause) (a : RegAddr) (t : BitVec 4) (i : Nat) (cw : Word) (s : State) :
    raise c a t i cw s = finish c ⟨a, t, BitVec.ofNat 8 i⟩ cw s := rfl

/-! ### finish -/

section
variable (c : Cause) (e : ErrInfo) (cw : Word) (s : State)

@[simp] theorem finish_params : (finish c e cw s).params = s.params := rfl
@[simp] theorem finish_regs : (finish c e cw s).regs = s.regs := rfl
@[simp] theorem finish_logSel : (finish c e cw s).logSel = s.logSel := rfl
@[simp] theorem finish_rej : (finish c e cw s).rej = s.rej := rfl
@[simp] theorem finish_logOvf : (finish c e cw s).logOvf = s.logOvf := rfl
@[simp] theorem finish_cause : (finish c e cw s).cause = c := rfl
@[simp] theorem finish_lastOp : (finish c e cw s).lastOp = opcodeOf cw := rfl
@[simp] theorem finish_doneCnt : (finish c e cw s).doneCnt = s.doneCnt + 1 := rfl
@[simp] theorem finish_errInfo : (finish c e cw s).errInfo = e := rfl
@[simp] theorem finish_dout : (finish c e cw s).dout = s.dout := rfl
@[simp] theorem finish_posX : (finish c e cw s).posX = s.posX := rfl
@[simp] theorem finish_posY : (finish c e cw s).posY = s.posY := rfl
@[simp] theorem finish_pixCount : (finish c e cw s).pixCount = s.pixCount := rfl
@[simp] theorem finish_log : (finish c e cw s).log = s.log := rfl
@[simp] theorem finish_engine : (finish c e cw s).engine = .idle := rfl
@[simp] theorem finish_busHistory : (finish c e cw s).busHistory = s.busHistory := rfl
@[simp] theorem finish_pixOut : (finish c e cw s).pixOut = s.pixOut := rfl
@[simp] theorem finish_script : (finish c e cw s).script = s.script := rfl
@[simp] theorem finish_busAnswers : (finish c e cw s).busAnswers = s.busAnswers := rfl
@[simp] theorem finish_extTable : (finish c e cw s).extTable = s.extTable := rfl
@[simp] theorem finish_accepted : (finish c e cw s).accepted = s.accepted := rfl
@[simp] theorem finish_hostReads : (finish c e cw s).hostReads = s.hostReads := rfl
@[simp] theorem finish_waitedMs : (finish c e cw s).waitedMs = s.waitedMs := rfl

end

/-! ### goTo -/

section
variable (cw : Word) (snap : OperandRegs) (ext : ExtSource) (ph : Phase) (s : State)

@[simp] theorem goTo_params : (goTo cw snap ext ph s).params = s.params := rfl
@[simp] theorem goTo_regs : (goTo cw snap ext ph s).regs = s.regs := rfl
@[simp] theorem goTo_logSel : (goTo cw snap ext ph s).logSel = s.logSel := rfl
@[simp] theorem goTo_rej : (goTo cw snap ext ph s).rej = s.rej := rfl
@[simp] theorem goTo_logOvf : (goTo cw snap ext ph s).logOvf = s.logOvf := rfl
@[simp] theorem goTo_cause : (goTo cw snap ext ph s).cause = s.cause := rfl
@[simp] theorem goTo_lastOp : (goTo cw snap ext ph s).lastOp = s.lastOp := rfl
@[simp] theorem goTo_doneCnt : (goTo cw snap ext ph s).doneCnt = s.doneCnt := rfl
@[simp] theorem goTo_errInfo : (goTo cw snap ext ph s).errInfo = s.errInfo := rfl
@[simp] theorem goTo_dout : (goTo cw snap ext ph s).dout = s.dout := rfl
@[simp] theorem goTo_posX : (goTo cw snap ext ph s).posX = s.posX := rfl
@[simp] theorem goTo_posY : (goTo cw snap ext ph s).posY = s.posY := rfl
@[simp] theorem goTo_pixCount : (goTo cw snap ext ph s).pixCount = s.pixCount := rfl
@[simp] theorem goTo_log : (goTo cw snap ext ph s).log = s.log := rfl
@[simp] theorem goTo_engine : (goTo cw snap ext ph s).engine = .busy cw snap ext ph := rfl
@[simp] theorem goTo_busHistory : (goTo cw snap ext ph s).busHistory = s.busHistory := rfl
@[simp] theorem goTo_pixOut : (goTo cw snap ext ph s).pixOut = s.pixOut := rfl
@[simp] theorem goTo_script : (goTo cw snap ext ph s).script = s.script := rfl
@[simp] theorem goTo_busAnswers : (goTo cw snap ext ph s).busAnswers = s.busAnswers := rfl
@[simp] theorem goTo_extTable : (goTo cw snap ext ph s).extTable = s.extTable := rfl
@[simp] theorem goTo_accepted : (goTo cw snap ext ph s).accepted = s.accepted := rfl
@[simp] theorem goTo_hostReads : (goTo cw snap ext ph s).hostReads = s.hostReads := rfl
@[simp] theorem goTo_waitedMs : (goTo cw snap ext ph s).waitedMs = s.waitedMs := rfl

end

/-! ### accept -/

section
variable (cw : Word) (s : State)

@[simp] theorem accept_params : (accept cw s).params = s.params := rfl
@[simp] theorem accept_regs : (accept cw s).regs = s.regs := rfl
@[simp] theorem accept_logSel : (accept cw s).logSel = s.logSel := rfl
@[simp] theorem accept_rej : (accept cw s).rej = s.rej := rfl
@[simp] theorem accept_logOvf : (accept cw s).logOvf = s.logOvf := rfl
@[simp] theorem accept_cause : (accept cw s).cause = s.cause := rfl
@[simp] theorem accept_lastOp : (accept cw s).lastOp = s.lastOp := rfl
@[simp] theorem accept_doneCnt : (accept cw s).doneCnt = s.doneCnt := rfl
@[simp] theorem accept_errInfo : (accept cw s).errInfo = s.errInfo := rfl
@[simp] theorem accept_dout : (accept cw s).dout = s.dout := rfl
@[simp] theorem accept_posX : (accept cw s).posX = s.posX := rfl
@[simp] theorem accept_posY : (accept cw s).posY = s.posY := rfl
@[simp] theorem accept_pixCount : (accept cw s).pixCount = s.pixCount := rfl
@[simp] theorem accept_log : (accept cw s).log = s.log := rfl
@[simp] theorem accept_engine : (accept cw s).engine = .busy cw s.regs ⟨s.extTable, s.accepted⟩ .start := rfl
@[simp] theorem accept_busHistory : (accept cw s).busHistory = s.busHistory := rfl
@[simp] theorem accept_pixOut : (accept cw s).pixOut = s.pixOut := rfl
@[simp] theorem accept_script : (accept cw s).script = s.script := rfl
@[simp] theorem accept_busAnswers : (accept cw s).busAnswers = s.busAnswers := rfl
@[simp] theorem accept_extTable : (accept cw s).extTable = s.extTable := rfl
@[simp] theorem accept_accepted : (accept cw s).accepted = s.accepted + 1 := rfl
@[simp] theorem accept_hostReads : (accept cw s).hostReads = s.hostReads := rfl
@[simp] theorem accept_waitedMs : (accept cw s).waitedMs = s.waitedMs := rfl

end

/-! ### busWrite -/

section
variable (dev : BitVec 7) (reg : RegAddr) (byte : Byte) (s : State)

@[simp] theorem busWrite_params : (busWrite dev reg byte s).params = s.params := rfl
@[simp] theorem busWrite_regs : (busWrite dev reg byte s).regs = s.regs := rfl
@[simp] theorem busWrite_logSel : (busWrite dev reg byte s).logSel = s.logSel := rfl
@[simp] theorem busWrite_rej : (busWrite dev reg byte s).rej = s.rej := rfl
@[simp] theorem busWrite_logOvf : (busWrite dev reg byte s).logOvf = s.logOvf := rfl
@[simp] theorem busWrite_cause : (busWrite dev reg byte s).cause = s.cause := rfl
@[simp] theorem busWrite_lastOp : (busWrite dev reg byte s).lastOp = s.lastOp := rfl
@[simp] theorem busWrite_doneCnt : (busWrite dev reg byte s).doneCnt = s.doneCnt := rfl
@[simp] theorem busWrite_errInfo : (busWrite dev reg byte s).errInfo = s.errInfo := rfl
@[simp] theorem busWrite_dout : (busWrite dev reg byte s).dout = s.dout := rfl
@[simp] theorem busWrite_posX : (busWrite dev reg byte s).posX = s.posX := rfl
@[simp] theorem busWrite_posY : (busWrite dev reg byte s).posY = s.posY := rfl
@[simp] theorem busWrite_pixCount : (busWrite dev reg byte s).pixCount = s.pixCount := rfl
@[simp] theorem busWrite_log : (busWrite dev reg byte s).log = s.log := rfl
@[simp] theorem busWrite_engine : (busWrite dev reg byte s).engine = s.engine := rfl
@[simp] theorem busWrite_busHistory : (busWrite dev reg byte s).busHistory = s.busHistory ++ [⟨dev, reg, byte, busOutcome s⟩] := rfl
@[simp] theorem busWrite_pixOut : (busWrite dev reg byte s).pixOut = s.pixOut := rfl
@[simp] theorem busWrite_script : (busWrite dev reg byte s).script = s.script := rfl
@[simp] theorem busWrite_busAnswers : (busWrite dev reg byte s).busAnswers = s.busAnswers.tail := rfl
@[simp] theorem busWrite_extTable : (busWrite dev reg byte s).extTable = s.extTable := rfl
@[simp] theorem busWrite_accepted : (busWrite dev reg byte s).accepted = s.accepted := rfl
@[simp] theorem busWrite_hostReads : (busWrite dev reg byte s).hostReads = s.hostReads := rfl
@[simp] theorem busWrite_waitedMs : (busWrite dev reg byte s).waitedMs = s.waitedMs := rfl

end

/-! ### logClear -/

section
variable (s : State)

@[simp] theorem logClear_params : (logClear s).params = s.params := rfl
@[simp] theorem logClear_regs : (logClear s).regs = s.regs := rfl
@[simp] theorem logClear_logSel : (logClear s).logSel = s.logSel := rfl
@[simp] theorem logClear_rej : (logClear s).rej = s.rej := rfl
@[simp] theorem logClear_logOvf : (logClear s).logOvf = false := rfl
@[simp] theorem logClear_cause : (logClear s).cause = s.cause := rfl
@[simp] theorem logClear_lastOp : (logClear s).lastOp = s.lastOp := rfl
@[simp] theorem logClear_doneCnt : (logClear s).doneCnt = s.doneCnt := rfl
@[simp] theorem logClear_errInfo : (logClear s).errInfo = s.errInfo := rfl
@[simp] theorem logClear_dout : (logClear s).dout = s.dout := rfl
@[simp] theorem logClear_posX : (logClear s).posX = s.posX := rfl
@[simp] theorem logClear_posY : (logClear s).posY = s.posY := rfl
@[simp] theorem logClear_pixCount : (logClear s).pixCount = s.pixCount := rfl
@[simp] theorem logClear_log : (logClear s).log = [] := rfl
@[simp] theorem logClear_engine : (logClear s).engine = s.engine := rfl
@[simp] theorem logClear_busHistory : (logClear s).busHistory = s.busHistory := rfl
@[simp] theorem logClear_pixOut : (logClear s).pixOut = s.pixOut := rfl
@[simp] theorem logClear_script : (logClear s).script = s.script := rfl
@[simp] theorem logClear_busAnswers : (logClear s).busAnswers = s.busAnswers := rfl
@[simp] theorem logClear_extTable : (logClear s).extTable = s.extTable := rfl
@[simp] theorem logClear_accepted : (logClear s).accepted = s.accepted := rfl
@[simp] theorem logClear_hostReads : (logClear s).hostReads = s.hostReads := rfl
@[simp] theorem logClear_waitedMs : (logClear s).waitedMs = s.waitedMs := rfl

end

/-! ### emit -/

section
variable (b : Byte) (s : State)

@[simp] theorem emit_params : (emit b s).params = s.params := rfl
@[simp] theorem emit_regs : (emit b s).regs = s.regs := rfl
@[simp] theorem emit_logSel : (emit b s).logSel = s.logSel := rfl
@[simp] theorem emit_rej : (emit b s).rej = s.rej := rfl
@[simp] theorem emit_logOvf : (emit b s).logOvf = s.logOvf := rfl
@[simp] theorem emit_cause : (emit b s).cause = s.cause := rfl
@[simp] theorem emit_lastOp : (emit b s).lastOp = s.lastOp := rfl
@[simp] theorem emit_doneCnt : (emit b s).doneCnt = s.doneCnt := rfl
@[simp] theorem emit_errInfo : (emit b s).errInfo = s.errInfo := rfl
@[simp] theorem emit_dout : (emit b s).dout = s.dout := rfl
@[simp] theorem emit_posX : (emit b s).posX = s.posX := rfl
@[simp] theorem emit_posY : (emit b s).posY = s.posY := rfl
@[simp] theorem emit_pixCount : (emit b s).pixCount = s.pixCount := rfl
@[simp] theorem emit_log : (emit b s).log = s.log := rfl
@[simp] theorem emit_engine : (emit b s).engine = s.engine := rfl
@[simp] theorem emit_busHistory : (emit b s).busHistory = s.busHistory := rfl
@[simp] theorem emit_pixOut : (emit b s).pixOut = s.pixOut ++ [b] := rfl
@[simp] theorem emit_script : (emit b s).script = s.script := rfl
@[simp] theorem emit_busAnswers : (emit b s).busAnswers = s.busAnswers := rfl
@[simp] theorem emit_extTable : (emit b s).extTable = s.extTable := rfl
@[simp] theorem emit_accepted : (emit b s).accepted = s.accepted := rfl
@[simp] theorem emit_hostReads : (emit b s).hostReads = s.hostReads := rfl
@[simp] theorem emit_waitedMs : (emit b s).waitedMs = s.waitedMs := rfl

end

/-! ### writeDout -/

section
variable (st ch : BitVec 2) (v : Sample10) (s : State)

@[simp] theorem writeDout_params : (writeDout st ch v s).params = s.params := rfl
@[simp] theorem writeDout_regs : (writeDout st ch v s).regs = s.regs := rfl
@[simp] theorem writeDout_logSel : (writeDout st ch v s).logSel = s.logSel := rfl
@[simp] theorem writeDout_rej : (writeDout st ch v s).rej = s.rej := rfl
@[simp] theorem writeDout_logOvf : (writeDout st ch v s).logOvf = s.logOvf := rfl
@[simp] theorem writeDout_cause : (writeDout st ch v s).cause = s.cause := rfl
@[simp] theorem writeDout_lastOp : (writeDout st ch v s).lastOp = s.lastOp := rfl
@[simp] theorem writeDout_doneCnt : (writeDout st ch v s).doneCnt = s.doneCnt := rfl
@[simp] theorem writeDout_errInfo : (writeDout st ch v s).errInfo = s.errInfo := rfl
@[simp] theorem writeDout_dout : (writeDout st ch v s).dout = ⟨st, ch, v, packMsb v, packLsb v⟩ := rfl
@[simp] theorem writeDout_posX : (writeDout st ch v s).posX = s.posX := rfl
@[simp] theorem writeDout_posY : (writeDout st ch v s).posY = s.posY := rfl
@[simp] theorem writeDout_pixCount : (writeDout st ch v s).pixCount = s.pixCount := rfl
@[simp] theorem writeDout_log : (writeDout st ch v s).log = s.log := rfl
@[simp] theorem writeDout_engine : (writeDout st ch v s).engine = s.engine := rfl
@[simp] theorem writeDout_busHistory : (writeDout st ch v s).busHistory = s.busHistory := rfl
@[simp] theorem writeDout_pixOut : (writeDout st ch v s).pixOut = s.pixOut := rfl
@[simp] theorem writeDout_script : (writeDout st ch v s).script = s.script := rfl
@[simp] theorem writeDout_busAnswers : (writeDout st ch v s).busAnswers = s.busAnswers := rfl
@[simp] theorem writeDout_extTable : (writeDout st ch v s).extTable = s.extTable := rfl
@[simp] theorem writeDout_accepted : (writeDout st ch v s).accepted = s.accepted := rfl
@[simp] theorem writeDout_hostReads : (writeDout st ch v s).hostReads = s.hostReads := rfl
@[simp] theorem writeDout_waitedMs : (writeDout st ch v s).waitedMs = s.waitedMs := rfl

end

/-! ### setPos -/

section
variable (x y : Nat) (s : State)

@[simp] theorem setPos_params : (setPos x y s).params = s.params := rfl
@[simp] theorem setPos_regs : (setPos x y s).regs = s.regs := rfl
@[simp] theorem setPos_logSel : (setPos x y s).logSel = s.logSel := rfl
@[simp] theorem setPos_rej : (setPos x y s).rej = s.rej := rfl
@[simp] theorem setPos_logOvf : (setPos x y s).logOvf = s.logOvf := rfl
@[simp] theorem setPos_cause : (setPos x y s).cause = s.cause := rfl
@[simp] theorem setPos_lastOp : (setPos x y s).lastOp = s.lastOp := rfl
@[simp] theorem setPos_doneCnt : (setPos x y s).doneCnt = s.doneCnt := rfl
@[simp] theorem setPos_errInfo : (setPos x y s).errInfo = s.errInfo := rfl
@[simp] theorem setPos_dout : (setPos x y s).dout = s.dout := rfl
@[simp] theorem setPos_posX : (setPos x y s).posX = BitVec.ofNat 16 x := rfl
@[simp] theorem setPos_posY : (setPos x y s).posY = BitVec.ofNat 16 y := rfl
@[simp] theorem setPos_pixCount : (setPos x y s).pixCount = s.pixCount := rfl
@[simp] theorem setPos_log : (setPos x y s).log = s.log := rfl
@[simp] theorem setPos_engine : (setPos x y s).engine = s.engine := rfl
@[simp] theorem setPos_busHistory : (setPos x y s).busHistory = s.busHistory := rfl
@[simp] theorem setPos_pixOut : (setPos x y s).pixOut = s.pixOut := rfl
@[simp] theorem setPos_script : (setPos x y s).script = s.script := rfl
@[simp] theorem setPos_busAnswers : (setPos x y s).busAnswers = s.busAnswers := rfl
@[simp] theorem setPos_extTable : (setPos x y s).extTable = s.extTable := rfl
@[simp] theorem setPos_accepted : (setPos x y s).accepted = s.accepted := rfl
@[simp] theorem setPos_hostReads : (setPos x y s).hostReads = s.hostReads := rfl
@[simp] theorem setPos_waitedMs : (setPos x y s).waitedMs = s.waitedMs := rfl

end

/-! ### settle -/

section
variable (ms : BitVec 16) (s : State)

@[simp] theorem settle_params : (settle ms s).params = s.params := rfl
@[simp] theorem settle_regs : (settle ms s).regs = s.regs := rfl
@[simp] theorem settle_logSel : (settle ms s).logSel = s.logSel := rfl
@[simp] theorem settle_rej : (settle ms s).rej = s.rej := rfl
@[simp] theorem settle_logOvf : (settle ms s).logOvf = s.logOvf := rfl
@[simp] theorem settle_cause : (settle ms s).cause = s.cause := rfl
@[simp] theorem settle_lastOp : (settle ms s).lastOp = s.lastOp := rfl
@[simp] theorem settle_doneCnt : (settle ms s).doneCnt = s.doneCnt := rfl
@[simp] theorem settle_errInfo : (settle ms s).errInfo = s.errInfo := rfl
@[simp] theorem settle_dout : (settle ms s).dout = s.dout := rfl
@[simp] theorem settle_posX : (settle ms s).posX = s.posX := rfl
@[simp] theorem settle_posY : (settle ms s).posY = s.posY := rfl
@[simp] theorem settle_pixCount : (settle ms s).pixCount = s.pixCount := rfl
@[simp] theorem settle_log : (settle ms s).log = s.log := rfl
@[simp] theorem settle_engine : (settle ms s).engine = s.engine := rfl
@[simp] theorem settle_busHistory : (settle ms s).busHistory = s.busHistory := rfl
@[simp] theorem settle_pixOut : (settle ms s).pixOut = s.pixOut := rfl
@[simp] theorem settle_script : (settle ms s).script = s.script := rfl
@[simp] theorem settle_busAnswers : (settle ms s).busAnswers = s.busAnswers := rfl
@[simp] theorem settle_extTable : (settle ms s).extTable = s.extTable := rfl
@[simp] theorem settle_accepted : (settle ms s).accepted = s.accepted := rfl
@[simp] theorem settle_hostReads : (settle ms s).hostReads = s.hostReads := rfl
@[simp] theorem settle_waitedMs : (settle ms s).waitedMs = s.waitedMs + ms.toNat := rfl

end

/-! ### resetBlock -/

section
variable (s : State)

@[simp] theorem resetBlock_params : (resetBlock s).params = s.params := rfl
@[simp] theorem resetBlock_regs : (resetBlock s).regs = OperandRegs.reset s.params := rfl
@[simp] theorem resetBlock_logSel : (resetBlock s).logSel = 0 := rfl
@[simp] theorem resetBlock_rej : (resetBlock s).rej = false := rfl
@[simp] theorem resetBlock_logOvf : (resetBlock s).logOvf = false := rfl
@[simp] theorem resetBlock_cause : (resetBlock s).cause = .ok := rfl
@[simp] theorem resetBlock_lastOp : (resetBlock s).lastOp = 0 := rfl
@[simp] theorem resetBlock_doneCnt : (resetBlock s).doneCnt = 0 := rfl
@[simp] theorem resetBlock_errInfo : (resetBlock s).errInfo = ⟨0, 0, 0⟩ := rfl
@[simp] theorem resetBlock_dout : (resetBlock s).dout = ⟨0, 0, 0, 0, 0⟩ := rfl
@[simp] theorem resetBlock_posX : (resetBlock s).posX = 0 := rfl
@[simp] theorem resetBlock_posY : (resetBlock s).posY = 0 := rfl
@[simp] theorem resetBlock_pixCount : (resetBlock s).pixCount = 0 := rfl
@[simp] theorem resetBlock_log : (resetBlock s).log = [] := rfl
@[simp] theorem resetBlock_engine : (resetBlock s).engine = .idle := rfl
@[simp] theorem resetBlock_busHistory : (resetBlock s).busHistory = s.busHistory := rfl
@[simp] theorem resetBlock_pixOut : (resetBlock s).pixOut = s.pixOut := rfl
@[simp] theorem resetBlock_script : (resetBlock s).script = s.script := rfl
@[simp] theorem resetBlock_busAnswers : (resetBlock s).busAnswers = s.busAnswers := rfl
@[simp] theorem resetBlock_extTable : (resetBlock s).extTable = s.extTable := rfl
@[simp] theorem resetBlock_accepted : (resetBlock s).accepted = s.accepted := rfl
@[simp] theorem resetBlock_hostReads : (resetBlock s).hostReads = s.hostReads := rfl
@[simp] theorem resetBlock_waitedMs : (resetBlock s).waitedMs = s.waitedMs := rfl

end

/-! ### logAppend -/

section
variable (e : LogEntry) (s : State)

@[simp] theorem logAppend_params : (logAppend e s).params = s.params := by unfold logAppend; split <;> rfl
@[simp] theorem logAppend_regs : (logAppend e s).regs = s.regs := by unfold logAppend; split <;> rfl
@[simp] theorem logAppend_logSel : (logAppend e s).logSel = s.logSel := by unfold logAppend; split <;> rfl
@[simp] theorem logAppend_rej : (logAppend e s).rej = s.rej := by unfold logAppend; split <;> rfl
@[simp] theorem logAppend_logOvf :
    (logAppend e s).logOvf = if s.log.length < s.params.logDepth then s.logOvf else true := by
  unfold logAppend; split <;> rfl
@[simp] theorem logAppend_cause : (logAppend e s).cause = s.cause := by unfold logAppend; split <;> rfl
@[simp] theorem logAppend_lastOp : (logAppend e s).lastOp = s.lastOp := by unfold logAppend; split <;> rfl
@[simp] theorem logAppend_doneCnt : (logAppend e s).doneCnt = s.doneCnt := by unfold logAppend; split <;> rfl
@[simp] theorem logAppend_errInfo : (logAppend e s).errInfo = s.errInfo := by unfold logAppend; split <;> rfl
@[simp] theorem logAppend_dout : (logAppend e s).dout = s.dout := by unfold logAppend; split <;> rfl
@[simp] theorem logAppend_posX : (logAppend e s).posX = s.posX := by unfold logAppend; split <;> rfl
@[simp] theorem logAppend_posY : (logAppend e s).posY = s.posY := by unfold logAppend; split <;> rfl
@[simp] theorem logAppend_pixCount : (logAppend e s).pixCount = s.pixCount := by unfold logAppend; split <;> rfl
@[simp] theorem logAppend_log :
    (logAppend e s).log = if s.log.length < s.params.logDepth then s.log ++ [e] else s.log := by
  unfold logAppend; split <;> rfl
@[simp] theorem logAppend_engine : (logAppend e s).engine = s.engine := by unfold logAppend; split <;> rfl
@[simp] theorem logAppend_busHistory : (logAppend e s).busHistory = s.busHistory := by unfold logAppend; split <;> rfl
@[simp] theorem logAppend_pixOut : (logAppend e s).pixOut = s.pixOut := by unfold logAppend; split <;> rfl
@[simp] theorem logAppend_script : (logAppend e s).script = s.script := by unfold logAppend; split <;> rfl
@[simp] theorem logAppend_busAnswers : (logAppend e s).busAnswers = s.busAnswers := by unfold logAppend; split <;> rfl
@[simp] theorem logAppend_extTable : (logAppend e s).extTable = s.extTable := by unfold logAppend; split <;> rfl
@[simp] theorem logAppend_accepted : (logAppend e s).accepted = s.accepted := by unfold logAppend; split <;> rfl
@[simp] theorem logAppend_hostReads : (logAppend e s).hostReads = s.hostReads := by unfold logAppend; split <;> rfl
@[simp] theorem logAppend_waitedMs : (logAppend e s).waitedMs = s.waitedMs := by unfold logAppend; split <;> rfl

end

end Sys2Proof.Machine
end

