-- ==== Sys2Proof/Laws/Commands.lean ====
section
/-! SUPPORT. What each shared operation of the commands can do, said once: the Start step of a one-step command, the validation
of a list (42_sequencer.md R143), the steps of a transaction and of a stream. -/

namespace Sys2Proof.Machine

/-- A one-step command in its Start phase. -/
theorem atStart_start {s : State} {cw : Word} {snap : OperandRegs} {ext : ExtSource}
    (h : s.engine = .busy cw snap ext .start) (f : Word → OperandRegs → ExtSource → Result) :
    atStart s f = f cw snap ext := by
  unfold atStart; rw [h]

/-- A one-step command leads on only from its Start phase. -/
theorem atStart_next {s t : State} {f : Word → OperandRegs → ExtSource → Result} (h : atStart s f = .next t) :
    ∃ cw snap ext, s.engine = .busy cw snap ext .start ∧ f cw snap ext = .next t := by
  unfold atStart at h
  split at h
  · exact ⟨_, _, _, ‹_›, h⟩
  all_goals cases h

/-- R143: no check fails exactly when every entry is good. -/
theorem validateFrom_eq_none {entries : List TxEntry} {i : Nat} : validateFrom i entries = none ↔ EntriesOk entries := by
  induction entries generalizing i with
  | nil => simp [validateFrom, EntriesOk]
  | cons e rest ih =>
    simp only [validateFrom, EntriesOk, List.forall_mem_cons] at ih ⊢
    split
    · simp [*]
    · split
      · rename_i h; rw [outOfRange_iff] at h; simp; intro _ h'; omega
      · rename_i h1 h2; rw [outOfRange_iff] at h2
        rw [ih]; exact ⟨fun h => ⟨⟨h1, by omega⟩, h⟩, fun h => h.2⟩

/-- R143: what a failure of the scan holds: the pair check's, with address 0xFFFF, or the range check's, with address 0. -/
theorem validateFrom_some {entries : List TxEntry} {i : Nat} {f : Failure} (h : validateFrom i entries = some f) :
    (f.cause = .validationPair ∧ f.addr = 0xFFFF) ∨ (f.cause = .validationRange ∧ f.addr = 0) := by
  induction entries generalizing i with
  | nil => cases h
  | cons e rest ih =>
    simp only [validateFrom] at h
    split at h
    · cases h; exact .inl ⟨rfl, ‹_›⟩
    · split at h
      · cases h; exact .inr ⟨rfl, rfl⟩
      · exact ih h

/-- R143: the scan stops at the first entry that is not good. -/
theorem validateFrom_first {entries : List TxEntry} {i j : Nat} {e : TxEntry} (he : entries[j]? = some e)
    (good : ∀ (k : Nat) (e' : TxEntry), k < j → entries[k]? = some e' → e'.addr ≠ 0xFFFF#16 ∧ e'.value.toNat ≤ 1023)
    (bad : e.addr = 0xFFFF#16 ∨ 1023 < e.value.toNat) :
    validateFrom i entries =
      some (if e.addr = 0xFFFF#16 then ⟨.validationPair, e.addr, i + j⟩ else ⟨.validationRange, 0, i + j⟩) := by
  induction entries generalizing i j with
  | nil => cases he
  | cons a rest ih =>
    cases j with
    | zero =>
      obtain rfl : a = e := by simpa using he
      by_cases h : a.addr = 0xFFFF#16
      · simp [validateFrom, h]
      · have : outOfRange a.value = true := (outOfRange_iff _).2 (bad.resolve_left h)
        simp [validateFrom, h, this]
    | succ j =>
      have g := good 0 a (by omega) rfl
      have h : outOfRange a.value = false := by simp [outOfRange, g.2]
      rw [validateFrom, if_neg g.1, h, if_neg (by simp),
        ih (i := i + 1) (by simpa using he) (fun k e' hk he' => good (k + 1) e' (by omega) (by simpa using he'))]
      simp [Nat.add_comm, Nat.add_left_comm]

/-- R144: the Start step of a transaction after the command's own checks. -/
theorem txStart_cases (entries : List TxEntry) (cw : Word) (snap : OperandRegs) (ext : ExtSource) (s : State) :
    (∃ f, validateFrom 0 entries = some f ∧
      txStart entries cw snap ext s = .next (finish f.cause ⟨f.addr, 0, BitVec.ofNat 8 f.index⟩ cw s)) ∨
    (entries = [] ∧ txStart entries cw snap ext s = .next (finish .ok ⟨0, 0, 0⟩ cw s)) ∨
    (EntriesOk entries ∧ entries ≠ [] ∧ txStart entries cw snap ext s = .next (goTo cw snap ext (.seqWrite 0 .lo) s)) := by
  unfold txStart
  cases h : validateFrom 0 entries with
  | some f => exact .inl ⟨f, rfl, rfl⟩
  | none =>
    cases entries with
    | nil => exact .inr (.inl ⟨rfl, rfl⟩)
    | cons e rest => exact .inr (.inr ⟨validateFrom_eq_none.1 h, by simp, rfl⟩)

/-- R145: what a SeqWrite step that leads on has done. -/
theorem txWrite_next {entries : List TxEntry} {cw : Word} {snap : OperandRegs} {ext : ExtSource} {i : Nat} {half : Half}
    {s t : State} (h : txWrite entries cw snap ext i half s = .next t) :
    ∃ e, entries[i]? = some e ∧ e.value.toNat ≤ 1023 ∧
      ((busOutcome s = .ok ∧
        t = goTo cw snap ext (afterWrite i half) (writeAndLog snap.devAddr (txReg e half) (txByte e half) s)) ∨
      ∃ k, busOutcome s = .fail k ∧
        t = finish .busError ⟨txReg e half, transportCode (.fail k), BitVec.ofNat 8 i⟩ cw
          (writeAndLog snap.devAddr (txReg e half) (txByte e half) s)) := by
  unfold txWrite at h
  split at h
  · cases h
  · rename_i e he
    split at h
    · cases h
    · rename_i hv
      refine ⟨e, he, by rw [outOfRange_iff] at hv; omega, ?_⟩
      dsimp only at h
      split at h <;> cases h
      · exact .inl ⟨‹_›, rfl⟩
      · exact .inr ⟨_, ‹_›, rfl⟩

/-- R149: what a SeqSettle step that leads on has done. -/
theorem txSettle_next {entries : List TxEntry} {cw : Word} {snap : OperandRegs} {ext : ExtSource} {i : Nat} {s t : State}
    (h : txSettle entries cw snap ext i s = .next t) :
    (i + 1 < entries.length ∧ t = goTo cw snap ext (.seqWrite (i + 1) .lo) (settle snap.settleMs s)) ∨
    (i + 1 = entries.length ∧ t = finish .ok ⟨0, 0, 0⟩ cw (settle snap.settleMs s)) := by
  unfold txSettle at h
  split at h
  · cases h
  · split at h <;> cases h
    · exact .inl ⟨‹_›, rfl⟩
    · exact .inr ⟨by omega, rfl⟩

/-- R127: the dimension checks, as numbers. -/
theorem streamDimBad_iff (maxDim : Nat) (snap : OperandRegs) : streamDimBad maxDim snap = true ↔
    maxDim < snap.frameW.toNat ∨ maxDim < snap.frameH.toNat ∨ snap.rowY1.toNat < snap.rowY0.toNat ∨
      snap.frameH.toNat < snap.rowY1.toNat := by
  simp [streamDimBad, or_assoc]

/-- R127: the value checks, as numbers. -/
theorem streamValueBad_iff (snap : OperandRegs) (ext : ExtSource) : streamValueBad snap ext = true ↔
    (snap.src = 0#1 ∧ (1023 < snap.chR.toNat ∨ 1023 < snap.chG.toNat ∨ 1023 < snap.chB.toNat)) ∨
    (snap.src ≠ 0#1 ∧ ∃ x y, x < snap.frameW.toNat ∧ snap.rowY0.toNat ≤ y ∧ y < snap.rowY1.toNat ∧
      1023 < (pixval snap ext x y).toNat) := by
  unfold streamValueBad
  split
  · rename_i h; simp [h, outOfRange_iff, or_assoc]
  · rename_i h
    simp only [List.any_eq_true, List.mem_range, outOfRange_iff, h, false_and, false_or, ne_eq, not_false_eq_true, true_and]
    constructor
    · rintro ⟨k, hk, x, hx, hv⟩
      exact ⟨x, _, hx, by omega, by omega, hv⟩
    · rintro ⟨x, y, hx, h0, h1, hv⟩
      exact ⟨y - snap.rowY0.toNat, by omega, x, hx, by rwa [show snap.rowY0.toNat + (y - snap.rowY0.toNat) = y by omega]⟩

/-- R124, R127: past the value checks no pixel of the range exceeds 1023. -/
theorem pixval_le_of_valid {snap : OperandRegs} {ext : ExtSource} (h : ¬ streamValueBad snap ext = true) {x y : Nat}
    (hx : x < snap.frameW.toNat) (h0 : snap.rowY0.toNat ≤ y) (h1 : y < snap.rowY1.toNat) :
    (pixval snap ext x y).toNat ≤ 1023 := by
  rw [streamValueBad_iff, not_or] at h
  by_cases hs : snap.src = 0#1
  · have h' := h.1
    simp only [hs, true_and, not_or] at h'
    unfold pixval uniformVal
    rw [if_pos hs]
    split <;> omega
  · by_contra hc
    exact h.2 ⟨hs, x, y, hx, h0, h1, by omega⟩

/-- R127: the Start step of STREAM. -/
theorem streamStart_cases (cw : Word) (snap : OperandRegs) (ext : ExtSource) (s : State) :
    (streamDimBad s.params.maxDim snap = true ∧
      streamStart cw snap ext s = .next (finish .validationDim ⟨0, 0, 0⟩ cw s)) ∨
    (streamDimBad s.params.maxDim snap = false ∧ streamValueBad snap ext = true ∧
      streamStart cw snap ext s = .next (finish .validationRange ⟨0, 0, 0⟩ cw s)) ∨
    (streamDimBad s.params.maxDim snap = false ∧ streamValueBad snap ext = false ∧
      (snap.frameW = 0#16 ∨ snap.rowY0 = snap.rowY1) ∧
      streamStart cw snap ext s =
        .next (finish .ok ⟨0, 0, 0⟩ cw { setPos 0 snap.rowY0.toNat s with pixCount := 0 })) ∨
    (streamDimBad s.params.maxDim snap = false ∧ streamValueBad snap ext = false ∧
      snap.frameW ≠ 0#16 ∧ snap.rowY0 ≠ snap.rowY1 ∧
      streamStart cw snap ext s = .next
        (goTo cw snap ext (.streamEmit 0 snap.rowY0.toNat) { setPos 0 snap.rowY0.toNat s with pixCount := 0 })) := by
  unfold streamStart
  cases hd : streamDimBad s.params.maxDim snap
  · cases hv : streamValueBad snap ext
    · by_cases he : snap.frameW = 0#16 ∨ snap.rowY0 = snap.rowY1
      · exact .inr (.inr (.inl ⟨rfl, rfl, he, by simp [he]⟩))
      · have he' := not_or.1 he
        exact .inr (.inr (.inr ⟨rfl, rfl, he'.1, he'.2, by simp [he'.1, he'.2]⟩))
    · exact .inr (.inl ⟨rfl, rfl, by simp⟩)
  · exact .inl ⟨rfl, by simp⟩

/-- R128: what a StreamEmit step that leads on has done. -/
theorem streamEmitStep_next {cw : Word} {snap : OperandRegs} {ext : ExtSource} {x y : Nat} {s t : State}
    (h : streamEmitStep cw snap ext x y s = .next t) :
    (pixval snap ext x y).toNat ≤ 1023 ∧
    (((nextPixel snap.frameW.toNat x y).2 = snap.rowY1.toNat ∧
        t = finish .ok ⟨0, 0, 0⟩ cw (emitPixel (pixval snap ext x y) (nextPixel snap.frameW.toNat x y) s)) ∨
      ((nextPixel snap.frameW.toNat x y).2 ≠ snap.rowY1.toNat ∧
        t = goTo cw snap ext (.streamEmit (nextPixel snap.frameW.toNat x y).1 (nextPixel snap.frameW.toNat x y).2)
          (emitPixel (pixval snap ext x y) (nextPixel snap.frameW.toNat x y) s))) := by
  unfold streamEmitStep at h
  dsimp only at h
  split at h
  · cases h
  · rename_i hv
    refine ⟨by rw [outOfRange_iff] at hv; omega, ?_⟩
    split at h <;> cases h
    · exact .inl ⟨‹_›, rfl⟩
    · exact .inr ⟨‹_›, rfl⟩

end Sys2Proof.Machine
end

