-- ==== Sys2Proof/Laws/Engine.lean ====
section
/-! SUPPORT. Everything a Busy engine's turn can do, said once: `Move` lists the outcomes, and `engineTurn_move` says there are
no others. Statements about every command follow by cases on it. -/

namespace Sys2Proof.Machine

/-- The outcomes of one turn of an engine that is Busy with (cw, snap, ext) in a phase: the rule of each is named. -/
inductive Move (s : State) (cw : Word) (snap : OperandRegs) (ext : ExtSource) : Phase → State → Prop where
  /-- A completion that writes nothing else: NOP, an empty transaction, an illegal word, a failed validation (R184, R185). -/
  | quiet (c : Cause) (e : ErrInfo) : c ≠ .busError → ErrInfoOk c e (opcodeOf cw) → Move s cw snap ext .start (finish c e cw s)
  /-- LOG_CLEAR (R171). -/
  | logClear : decode cw = .ok .logClear → Move s cw snap ext .start (finish .ok ⟨0, 0, 0⟩ cw (logClear s))
  /-- PACK, UNPACK, RESCALE, ROUTE or PIXEL completing with cause 0 (R28). -/
  | dout (st ch : BitVec 2) (v : Sample10) : ch ≠ 3 → cw.toNat % 256 ∈ [0x10, 0x11, 0x12, 0x20, 0x21] →
      Move s cw snap ext .start (finish .ok ⟨0, 0, 0⟩ cw (writeDout st ch v s))
  /-- STREAM over an empty range (R127). -/
  | streamEmpty : decode cw = .ok .stream →
      Move s cw snap ext .start (finish .ok ⟨0, 0, 0⟩ cw { setPos 0 snap.rowY0.toNat s with pixCount := 0 })
  /-- STREAM past its validation (R127). -/
  | streamEnter : decode cw = .ok .stream → streamDimBad s.params.maxDim snap = false → streamValueBad snap ext = false →
      snap.frameW ≠ 0#16 → snap.rowY0 ≠ snap.rowY1 →
      Move s cw snap ext .start
        (goTo cw snap ext (.streamEmit 0 snap.rowY0.toNat) { setPos 0 snap.rowY0.toNat s with pixCount := 0 })
  /-- The last pixel of a STREAM (R128). -/
  | emitLast (x y : Nat) : decode cw = .ok .stream → (nextPixel snap.frameW.toNat x y).2 = snap.rowY1.toNat →
      Move s cw snap ext (.streamEmit x y)
        (finish .ok ⟨0, 0, 0⟩ cw (emitPixel (pixval snap ext x y) (nextPixel snap.frameW.toNat x y) s))
  /-- A pixel of a STREAM that is not the last (R128). -/
  | emitNext (x y : Nat) : decode cw = .ok .stream → (nextPixel snap.frameW.toNat x y).2 ≠ snap.rowY1.toNat →
      Move s cw snap ext (.streamEmit x y)
        (goTo cw snap ext (.streamEmit (nextPixel snap.frameW.toNat x y).1 (nextPixel snap.frameW.toNat x y).2)
          (emitPixel (pixval snap ext x y) (nextPixel snap.frameW.toNat x y) s))
  /-- A transaction past its validation (R144). -/
  | txEnter (entries : List TxEntry) : txList cw snap = some entries → EntriesOk entries → entries ≠ [] →
      (decode cw = .ok .seqList → snap.wlLen.toNat ≤ s.params.wlDepth) →
      Move s cw snap ext .start (goTo cw snap ext (.seqWrite 0 .lo) s)
  /-- A byte write answered OK (R145). -/
  | writeOk (entries : List TxEntry) (e : TxEntry) (i : Nat) (half : Half) : txList cw snap = some entries →
      entries[i]? = some e → busOutcome s = .ok →
      Move s cw snap ext (.seqWrite i half)
        (goTo cw snap ext (afterWrite i half) (writeAndLog snap.devAddr (txReg e half) (txByte e half) s))
  /-- A byte write answered FAIL(t) (R145). -/
  | writeFail (entries : List TxEntry) (e : TxEntry) (i : Nat) (half : Half) (k : Fin 15) : txList cw snap = some entries →
      entries[i]? = some e → busOutcome s = .fail k →
      Move s cw snap ext (.seqWrite i half)
        (finish .busError ⟨txReg e half, transportCode (.fail k), BitVec.ofNat 8 i⟩ cw
          (writeAndLog snap.devAddr (txReg e half) (txByte e half) s))
  /-- The settle delay before another pair (R149). -/
  | settleNext (entries : List TxEntry) (i : Nat) : txList cw snap = some entries → i + 1 < entries.length →
      Move s cw snap ext (.seqSettle i) (goTo cw snap ext (.seqWrite (i + 1) .lo) (settle snap.settleMs s))
  /-- The settle delay after the last pair (R149). -/
  | settleLast (entries : List TxEntry) (i : Nat) : txList cw snap = some entries → i + 1 = entries.length →
      Move s cw snap ext (.seqSettle i) (finish .ok ⟨0, 0, 0⟩ cw (settle snap.settleMs s))

/-- R11: no channel has code 3. -/
theorem channel_code_ne_three (c : Channel) : c.code ≠ 3 := by cases c <;> decide

/-- A command's word carries the command's opcode. -/
theorem decode_opcode {cw : Word} {i : Instr} (h : decode cw = .ok i) : cw.toNat % 256 = i.opcode.toNat := by
  unfold decode decodeN decodeI16 decodeBB decodeI8 decodeXY at h
  repeat' (split at h)
  all_goals cases h
  all_goals simp only [opcodeOf_eq_iff] at *; assumption

/-- R142: a word that starts a transaction has the opcode of SEQ_LIST or of SEQ_TP. -/
theorem txList_opcode {cw : Word} {snap : OperandRegs} {entries : List TxEntry} (h : txList cw snap = some entries) :
    opcodeOf cw = 0x30 ∨ opcodeOf cw = 0x31 := by
  unfold txList at h
  split at h <;> try cases h
  · exact .inl ((opcodeOf_eq_iff _ _).2 (decode_opcode ‹_›))
  · exact .inr ((opcodeOf_eq_iff _ _).2 (decode_opcode ‹_›))

/-- A failed validation is a quiet completion (R143). -/
theorem quiet_of_validate {s : State} {cw : Word} {snap : OperandRegs} {ext : ExtSource} {entries : List TxEntry}
    {f : Failure} (hop : opcodeOf cw = 0x30 ∨ opcodeOf cw = 0x31) (h : validateFrom 0 entries = some f) :
    Move s cw snap ext .start (finish f.cause ⟨f.addr, 0, BitVec.ofNat 8 f.index⟩ cw s) := by
  rcases validateFrom_some h with ⟨hc, ha⟩ | ⟨hc, ha⟩ <;> rw [hc, ha]
  · exact .quiet _ _ (by simp) ⟨rfl, rfl⟩
  · exact .quiet _ _ (by simp) ⟨rfl, rfl, fun h h' => (hop.elim h h').elim⟩

/-- A transaction's turn, in every phase it has. -/
theorem tx_move {s t : State} {cw : Word} {snap : OperandRegs} {ext : ExtSource} {entries : List TxEntry}
    (hl : txList cw snap = some entries) :
    ((decode cw = .ok .seqList → snap.wlLen.toNat ≤ s.params.wlDepth) → txStart entries cw snap ext s = .next t →
      Move s cw snap ext .start t) ∧
    (∀ i half, txWrite entries cw snap ext i half s = .next t → Move s cw snap ext (.seqWrite i half) t) ∧
    (∀ i, txSettle entries cw snap ext i s = .next t → Move s cw snap ext (.seqSettle i) t) := by
  refine ⟨fun hn h => ?_, fun i half h => ?_, fun i h => ?_⟩
  · rcases txStart_cases entries cw snap ext s with ⟨f, hf, e⟩ | ⟨_, e⟩ | ⟨hg, hne, e⟩ <;> rw [e] at h <;> cases h
    · exact quiet_of_validate (txList_opcode hl) hf
    · exact .quiet _ _ (by simp) rfl
    · exact .txEnter entries hl hg hne hn
  · obtain ⟨e, he, _, ⟨ho, rfl⟩ | ⟨k, ho, rfl⟩⟩ := txWrite_next h
    · exact .writeOk entries e i half hl he ho
    · exact .writeFail entries e i half k hl he ho
  · obtain ⟨hi, rfl⟩ | ⟨hi, rfl⟩ := txSettle_next h
    · exact .settleNext entries i hl hi
    · exact .settleLast entries i hl hi

/-- Every turn of a Busy engine that leads on is one of the moves. -/
theorem engineTurn_move {s t : State} {cw : Word} {snap : OperandRegs} {ext : ExtSource} {ph : Phase}
    (hs : s.engine = .busy cw snap ext ph) (h : engineTurn s = .next t) : Move s cw snap ext ph t := by
  unfold engineTurn at h
  rw [hs] at h
  dsimp only at h
  split at h
  · rename_i i hi
    have hop := decode_opcode hi
    cases i <;> simp only [exec] at h
    case nop =>
      obtain ⟨_, _, _, he, h⟩ := atStart_next h
      cases hs.symm.trans he; cases h
      exact .quiet _ _ (by simp) rfl
    case logClear =>
      obtain ⟨_, _, _, he, h⟩ := atStart_next h
      cases hs.symm.trans he; cases h
      exact .logClear hi
    case pack v =>
      obtain ⟨_, _, _, he, h⟩ := atStart_next h
      cases hs.symm.trans he
      split at h <;> cases h
      · exact .quiet _ _ (by simp) ⟨rfl, rfl, fun _ _ => rfl⟩
      · exact .dout _ _ _ (by decide) (by simp [hop, Instr.opcode])
    case unpack l m =>
      obtain ⟨_, _, _, he, h⟩ := atStart_next h
      cases hs.symm.trans he; cases h
      exact .dout _ _ _ (by decide) (by simp [hop, Instr.opcode])
    case rescale v8 =>
      obtain ⟨_, _, _, he, h⟩ := atStart_next h
      cases hs.symm.trans he; cases h
      exact .dout _ _ _ (by decide) (by simp [hop, Instr.opcode])
    case route x y =>
      obtain ⟨_, _, _, he, h⟩ := atStart_next h
      cases hs.symm.trans he; cases h
      exact .dout _ _ _ (channel_code_ne_three _) (by simp [hop, Instr.opcode])
    case pixel x y =>
      obtain ⟨_, _, _, he, h⟩ := atStart_next h
      cases hs.symm.trans he
      split at h <;> cases h
      · exact .quiet _ _ (by simp) ⟨rfl, rfl, fun _ _ => rfl⟩
      · exact .dout _ _ _ (channel_code_ne_three _) (by simp [hop, Instr.opcode])
    case stream =>
      unfold execStream at h
      rw [hs] at h
      cases ph <;> dsimp only at h <;> try cases h
      · rcases streamStart_cases cw snap ext s with ⟨_, e⟩ | ⟨_, _, e⟩ | ⟨_, _, _, e⟩ | ⟨hd, hv, hw, hy, e⟩ <;>
          rw [e] at h <;> cases h
        · exact .quiet _ _ (by simp) rfl
        · exact .quiet _ _ (by simp) ⟨rfl, rfl, fun _ _ => rfl⟩
        · exact .streamEmpty hi
        · exact .streamEnter hi hd hv hw hy
      · obtain ⟨_, ⟨hl, rfl⟩ | ⟨hl, rfl⟩⟩ := streamEmitStep_next h
        · exact .emitLast _ _ hi hl
        · exact .emitNext _ _ hi hl
    case seqList =>
      have hl : txList cw snap = some (seqListEntries snap) := by simp [txList, hi]
      unfold execSeqList at h
      rw [hs] at h
      cases ph <;> dsimp only at h <;> try cases h
      · split at h
        · cases h; exact .quiet _ _ (by simp) rfl
        · exact (tx_move hl).1 (fun _ => by omega) h
      · exact (tx_move hl).2.1 _ _ h
      · exact (tx_move hl).2.2 _ h
    case seqTp =>
      have hl : txList cw snap = some (seqTpEntries snap) := by simp [txList, hi]
      unfold execSeqTp at h
      rw [hs] at h
      cases ph <;> dsimp only at h <;> try cases h
      · exact (tx_move hl).1 (fun hc => by rw [hi] at hc; cases hc) h
      · exact (tx_move hl).2.1 _ _ h
      · exact (tx_move hl).2.2 _ h
  · obtain ⟨_, _, _, he, h⟩ := atStart_next h
    cases hs.symm.trans he; cases h
    exact .quiet _ _ (by simp) rfl

/-- An Idle engine's turn changes nothing (R199). -/
theorem engineTurn_idle {s : State} (hs : s.engine = .idle) : engineTurn s = .next s := by
  unfold engineTurn; rw [hs]

/-- A Busy engine's turn is `exec` of the command its word decodes to. -/
theorem engineTurn_busy {s : State} {cw : Word} {snap : OperandRegs} {ext : ExtSource} {ph : Phase} {i : Instr}
    (hs : s.engine = .busy cw snap ext ph) (hi : decode cw = .ok i) : engineTurn s = exec i s := by
  unfold engineTurn; rw [hs]; simp only [hi]

/-- With no turn in the script, a step is the engine's turn (log 2). -/
theorem step_nil {s : State} (h : s.script = []) : step s = engineTurn s := by
  unfold step nextTurn; rw [h]

/-- When the coming turn is the engine's, a step is that turn, taken from the script (log 2). -/
theorem step_engineNext {s : State} {rest : List Turn} (h : EngineNext s rest) :
    step s = engineTurn { s with script := rest } := by
  obtain ⟨hs, rfl⟩ | hs := h
  · rw [step_nil hs, ← hs]
  · unfold step nextTurn
    rw [hs]
    rfl

/-- With turns in the script, a step is the first of them (log 2). -/
theorem step_cons {s : State} {turn : Turn} {rest : List Turn} (h : s.script = turn :: rest) :
    step s = takeTurn turn { s with script := rest } := by
  unfold step nextTurn; rw [h]

end Sys2Proof.Machine
end

