-- ==== Sys2Proof/Laws/PerInstr.lean ====
section
/-! SUPPORT. Facts about the instructions as syntax, one lemma for each constructor. -/

/-- R80, R83: the low byte of a command's word is the command's opcode. -/
def Sys2Proof.Laws.OpcodeByte.Statement (i : Sys2Proof.Instr) : Prop :=
  Sys2Proof.opcodeOf (Sys2Proof.encode i) = i.opcode

namespace Sys2Proof.Laws.OpcodeByte

open Sys2Proof Sys2Proof.Machine

/-- The low byte of a word whose low field is a byte. -/
theorem opcodeOf_append {n : Nat} (h : n + 8 = 32) (a : BitVec n) (b : Byte) :
    opcodeOf ((a ++ b).cast h) = b := by
  rw [opcodeOf_eq_iff, BitVec.toNat_cast, append_toNat_mul]
  have := b.isLt
  omega

theorem nop : Statement .nop := opcodeOf_append rfl 0#24 _

theorem logClear : Statement .logClear := opcodeOf_append rfl 0#24 _

theorem pack (value : Raw16) : Statement (.pack value) := opcodeOf_append rfl (value ++ 0#8) _

theorem unpack (lsb msb : Byte) : Statement (.unpack lsb msb) := opcodeOf_append rfl (msb ++ lsb ++ 0#8) _

theorem rescale (v8 : Byte) : Statement (.rescale v8) := opcodeOf_append rfl (0#8 ++ v8 ++ 0#8) _

theorem route (x y : Coord12) : Statement (.route x y) := opcodeOf_append rfl (y ++ x) _

theorem pixel (x y : Coord12) : Statement (.pixel x y) := opcodeOf_append rfl (y ++ x) _

theorem stream : Statement .stream := opcodeOf_append rfl 0#24 _

theorem seqList : Statement .seqList := opcodeOf_append rfl 0#24 _

theorem seqTp : Statement .seqTp := opcodeOf_append rfl 0#24 _

end Sys2Proof.Laws.OpcodeByte
end

