-- ==== Sys2Proof/Laws/Run.lean ====
section
/-! SUPPORT. Runs of several steps: how they begin and how they join. -/

namespace Sys2Proof.Machine

/-- A run of no steps. -/
theorem run_zero (s : State) : Host.Core.run Sys2Proof.core 0 s = .next s := rfl

/-- A run whose first step leads on. -/
theorem run_succ {s u : State} (h : step s = .next u) (k : Nat) :
    Host.Core.run Sys2Proof.core (k + 1) s = Host.Core.run Sys2Proof.core k u := by
  have h' : Sys2Proof.core.step s = .next u := h
  simp only [Host.Core.run, h']

/-- Two runs, one after the other. -/
theorem run_add {a b : Nat} {s t u : State} (h : Host.Core.run Sys2Proof.core a s = .next t)
    (h' : Host.Core.run Sys2Proof.core b t = .next u) : Host.Core.run Sys2Proof.core (a + b) s = .next u := by
  induction a generalizing s with
  | zero => cases h; simpa using h'
  | succ a ih =>
    simp only [Host.Core.run] at h
    split at h
    · rename_i v hs
      have hs' : step s = .next v := hs
      rw [show a + 1 + b = a + b + 1 by omega, run_succ hs']
      exact ih h
    · cases h
    · cases h

/-- A run of one step. -/
theorem run_one {s t : State} (h : step s = .next t) : Host.Core.run Sys2Proof.core 1 s = .next t := by
  rw [run_succ h]; rfl

end Sys2Proof.Machine
end

