-- ==== Sys2Proof/Laws/Step.lean ====
section
/-! SUPPORT. Everything a step can do, said once: `StepKind` lists what the turn of each agent does, and `step_kind` says there is
nothing else. Beside it, what a host write can do, where the registers stand, and the fields of `writeAndLog`. -/

namespace Sys2Proof.Machine

/-! ### writeAndLog -/

section
variable (dev : BitVec 7) (reg : RegAddr) (byte : Byte) (s : State)

@[simp] theorem writeAndLog_params : (writeAndLog dev reg byte s).params = s.params := by simp [writeAndLog]
@[simp] theorem writeAndLog_regs : (writeAndLog dev reg byte s).regs = s.regs := by simp [writeAndLog]
@[simp] theorem writeAndLog_logSel : (writeAndLog dev reg byte s).logSel = s.logSel := by simp [writeAndLog]
@[simp] theorem writeAndLog_rej : (writeAndLog dev reg byte s).rej = s.rej := by simp [writeAndLog]
@[simp] theorem writeAndLog_cause : (writeAndLog dev reg byte s).cause = s.cause := by simp [writeAndLog]
@[simp] theorem writeAndLog_lastOp : (writeAndLog dev reg byte s).lastOp = s.lastOp := by simp [writeAndLog]
@[simp] theorem writeAndLog_doneCnt : (writeAndLog dev reg byte s).doneCnt = s.doneCnt := by simp [writeAndLog]
@[simp] theorem writeAndLog_errInfo : (writeAndLog dev reg byte s).errInfo = s.errInfo := by simp [writeAndLog]
@[simp] theorem writeAndLog_dout : (writeAndLog dev reg byte s).dout = s.dout := by simp [writeAndLog]
@[simp] theorem writeAndLog_posX : (writeAndLog dev reg byte s).posX = s.posX := by simp [writeAndLog]
@[simp] theorem writeAndLog_posY : (writeAndLog dev reg byte s).posY = s.posY := by simp [writeAndLog]
@[simp] theorem writeAndLog_pixCount : (writeAndLog dev reg byte s).pixCount = s.pixCount := by simp [writeAndLog]
@[simp] theorem writeAndLog_engine : (writeAndLog dev reg byte s).engine = s.engine := by simp [writeAndLog]
@[simp] theorem writeAndLog_pixOut : (writeAndLog dev reg byte s).pixOut = s.pixOut := by simp [writeAndLog]
@[simp] theorem writeAndLog_script : (writeAndLog dev reg byte s).script = s.script := by simp [writeAndLog]
@[simp] theorem writeAndLog_extTable : (writeAndLog dev reg byte s).extTable = s.extTable := by simp [writeAndLog]
@[simp] theorem writeAndLog_accepted : (writeAndLog dev reg byte s).accepted = s.accepted := by simp [writeAndLog]
@[simp] theorem writeAndLog_hostReads : (writeAndLog dev reg byte s).hostReads = s.hostReads := by simp [writeAndLog]
@[simp] theorem writeAndLog_waitedMs : (writeAndLog dev reg byte s).waitedMs = s.waitedMs := by simp [writeAndLog]
@[simp] theorem writeAndLog_busHistory :
    (writeAndLog dev reg byte s).busHistory = s.busHistory ++ [⟨dev, reg, byte, busOutcome s⟩] := by simp [writeAndLog]
@[simp] theorem writeAndLog_busAnswers : (writeAndLog dev reg byte s).busAnswers = s.busAnswers.tail := by simp [writeAndLog]

/-- R150: the log after a byte write: one entry more while there is room, else as it was with LOG_OVF set. -/
theorem writeAndLog_log :
    (s.log.length < s.params.logDepth ∧
      (writeAndLog dev reg byte s).log = s.log ++ [⟨reg, byte, busOutcome s⟩] ∧
      (writeAndLog dev reg byte s).logOvf = s.logOvf) ∨
    (s.params.logDepth ≤ s.log.length ∧ (writeAndLog dev reg byte s).log = s.log ∧
      (writeAndLog dev reg byte s).logOvf = true) := by
  unfold writeAndLog logAppend
  split
  · exact .inl ⟨by simpa using ‹_›, rfl, rfl⟩
  · rename_i h
    exact .inr ⟨by simpa using h, rfl, rfl⟩

end

/-! ### The CSR window -/

/-- R20: from 0x054 up only WL entries below WL_DEPTH stand in the window. -/
theorem csrAt_above (d off : Nat) (h : 0x050 < off) :
    csrAt d off = if 0x080 ≤ off ∧ (off - 0x080) / 4 < d then some (.wl ((off - 0x080) / 4)) else none := by
  unfold csrAt
  split <;> first | rfl | omega

/-- R20: the offset of a register. -/
def Csr.offset : Csr → Nat
  | .id => 0x000
  | .ctrl => 0x004
  | .status => 0x008
  | .cmd => 0x00C
  | .errinfo => 0x010
  | .dout => 0x014
  | .chR => 0x018
  | .chG => 0x01C
  | .chB => 0x020
  | .tpeValue => 0x024
  | .frameDim => 0x028
  | .rowRange => 0x02C
  | .pos => 0x030
  | .pixCount => 0x034
  | .settleMs => 0x038
  | .devAddr => 0x03C
  | .wlLen => 0x040
  | .logCount => 0x044
  | .logSel => 0x048
  | .logEntry => 0x04C
  | .param => 0x050
  | .wl i => 0x080 + 4 * i

/-- R20: an aligned offset names one register, which stands at that offset and no other. -/
theorem csrAt_offset {d off : Nat} {c : Csr} (h : csrAt d off = some c) (ha : off % 4 = 0) : off = c.offset := by
  unfold csrAt at h
  split at h <;> try (cases h; rfl)
  split at h <;> cases h
  simp only [Csr.offset]
  omega

/-- R20, R25, R26: what a host write can do: issue a command, or set the operand registers, LOG_SEL and REJ and nothing else. -/
theorem writeCsr_cases (s : State) (v : Word) (c : Csr) :
    (c = .cmd ∧ writeCsr s v c = issue v s) ∨
    ∃ r sel b, writeCsr s v c = { s with regs := r, logSel := sel, rej := b } ∧ r.wl.length = s.regs.wl.length := by
  cases c
  case cmd => exact .inl ⟨rfl, rfl⟩
  case status =>
    right
    simp only [writeCsr]
    split
    · exact ⟨s.regs, s.logSel, false, rfl, rfl⟩
    · exact ⟨s.regs, s.logSel, s.rej, rfl, rfl⟩
  all_goals
    first
      | exact .inr ⟨s.regs, s.logSel, s.rej, rfl, rfl⟩
      | exact .inr ⟨_, s.logSel, s.rej, rfl, by simp⟩
      | exact .inr ⟨s.regs, _, s.rej, rfl, rfl⟩

/-! ### A step -/

/-- What a step that leads on can be. -/
inductive StepKind (s : State) : State → Prop where
  /-- The engine's turn, with the script empty or the turn taken from it. -/
  | engine (rest : List Turn) (t : State) : EngineNext s rest →
      engineTurn { s with script := rest } = .next t → StepKind s t
  /-- A host access that issues no accepted command, a poll, or a change of the source: only the host-writable registers, REJ,
  the record of reads, the source and the script may change. -/
  | quiet (rest : List Turn) (r : OperandRegs) (sel : BitVec 16) (b : Bool) (reads : List Word) (table : List ExtSample) :
      r.wl.length = s.regs.wl.length → (∀ x, s.script ≠ .reset :: x) →
      StepKind s { s with script := rest, regs := r, logSel := sel, rej := b, hostReads := reads, extTable := table }
  /-- A CMD write that the Idle engine accepts (R188). -/
  | accepted (rest : List Turn) (v : Word) : s.engine = .idle → (∀ x, s.script ≠ .reset :: x) →
      StepKind s (accept v { s with script := rest })
  /-- Reset (R211). -/
  | reset (rest : List Turn) : s.script = .reset :: rest → StepKind s (resetBlock { s with script := rest })

/-- Every step that leads on is of one of the kinds. -/
theorem step_kind {s t : State} (h : step s = .next t) : StepKind s t := by
  cases hs : s.script with
  | nil =>
    rw [step_nil hs] at h
    refine .engine [] t (.inl ⟨hs, rfl⟩) ?_
    rw [← h, ← hs]
  | cons u rest =>
    rw [step_cons hs] at h
    cases u with
    | engine => exact .engine rest t (.inr hs) h
    | read w off =>
      simp only [takeTurn, hostRead] at h
      split at h <;> cases h
      exact .quiet rest s.regs s.logSel s.rej _ s.extTable rfl (by simp [hs])
    | write w off v =>
      simp only [takeTurn, hostWrite] at h
      split at h <;> cases h
      unfold memWrite
      split
      · rename_i c _
        rcases writeCsr_cases { s with script := rest } v c with ⟨rfl, e⟩ | ⟨r, sel, b, e, hl⟩ <;> rw [e]
        · unfold issue
          split
          · exact .quiet rest s.regs s.logSel true s.hostReads s.extTable rfl (by simp [hs])
          · refine .accepted rest v ?_ (by simp [hs])
            cases he : s.engine <;> simp_all [Engine.isBusy]
        · exact .quiet rest r sel b s.hostReads s.extTable hl (by simp [hs])
      · exact .quiet rest s.regs s.logSel s.rej s.hostReads s.extTable rfl (by simp [hs])
    | poll =>
      cases h
      exact .quiet _ s.regs s.logSel s.rej _ s.extTable rfl (by simp [hs])
    | source table => cases h; exact .quiet rest s.regs s.logSel s.rej s.hostReads table rfl (by simp [hs])
    | reset => cases h; exact .reset rest hs

/-- The engine's turn as a step: an Idle engine keeps its state, a Busy one makes a move. -/
theorem engineTurn_kind {s t : State} (h : engineTurn s = .next t) :
    (s.engine = .idle ∧ t = s) ∨ ∃ cw snap ext ph, s.engine = .busy cw snap ext ph ∧ Move s cw snap ext ph t := by
  cases he : s.engine with
  | idle => rw [engineTurn_idle he] at h; cases h; exact .inl ⟨rfl, rfl⟩
  | busy cw snap ext ph => exact .inr ⟨_, _, _, _, rfl, engineTurn_move he h⟩

end Sys2Proof.Machine
end

