-- ==== Sys2Proof/Tests/Slice0.lean ====
section
/-! SUPPORT. Tests: the well-formedness smoke tests, one word for every command, one-step vectors of 95_test_vectors.md (each
test's comment names its vector), and a witness for the hypotheses of every statement. -/

namespace Sys2Proof.Tests

open Sys2Proof Sys2Proof.Machine Sys2Proof.Claims

/-! ## Well-formedness: an ill-formed term for each check -/

theorem test_params_wf : Params.spec.wf = true := by decide

theorem test_params_ill_formed :
    Params.wf { Params.spec with wlDepth := 4 } = false ∧ Params.wf { Params.spec with wlDepth := 33 } = false ∧
    Params.wf { Params.spec with logDepth := 0 } = false ∧ Params.wf { Params.spec with logDepth := 65536 } = false ∧
    Params.wf { Params.spec with maxDim := 4095 } = false ∧ Params.wf { Params.spec with resetSettleMs := 0 } = false ∧
    Params.wf { Params.spec with resetDevAddr := 0 } = false := by decide

theorem test_register_map_wf : registerMapWf Config.registerMap = true := by decide

theorem test_register_map_ill_formed :
    registerMapWf [⟨.red, 0x0602, 0x0604⟩] = false ∧ registerMapWf [⟨.red, 0xFFFF, 0x0000⟩] = false := by decide

theorem test_asm_ill_formed :
    (Asm.pack 0x10000).wf = false ∧ (Asm.unpack 0x100 0).wf = false ∧ (Asm.unpack 0 0x100).wf = false ∧
    (Asm.rescale 256).wf = false ∧ (Asm.route 4096 0).wf = false ∧ (Asm.route 0 4096).wf = false ∧
    (Asm.pixel 4096 0).wf = false ∧ (Asm.pixel 0 4096).wf = false := by decide

theorem test_asm_bounds :
    (Asm.pack 0xFFFF).wf = true ∧ (Asm.unpack 0xFF 0xFF).wf = true ∧ (Asm.rescale 255).wf = true ∧
    (Asm.route 4095 4095).wf = true ∧ (Asm.pixel 4095 4095).wf = true := by decide

/-! ## Decoding: every command's word, its bits written out from R81 and R83 -/

theorem test_decode_nop : decode 0b00000000000000000000000000000000#32 = .ok .nop := by decide
theorem test_decode_logClear : decode 0b00000000000000000000000000000001#32 = .ok .logClear := by decide
theorem test_decode_pack : decode 0b00000010000000010000000000010000#32 = .ok (.pack 513) := by decide
theorem test_decode_unpack : decode 0b00000011111111110000000000010001#32 = .ok (.unpack 0xFF 0x03) := by decide
theorem test_decode_rescale : decode 0b00000000100000000000000000010010#32 = .ok (.rescale 128) := by decide
theorem test_decode_route : decode 0b00000000000100000000001000100000#32 = .ok (.route 2 1) := by decide
theorem test_decode_pixel : decode 0b00000000000100000000001100100001#32 = .ok (.pixel 3 1) := by decide
theorem test_decode_stream : decode 0b00000000000000000000000000100010#32 = .ok .stream := by decide
theorem test_decode_seqList : decode 0b00000000000000000000000000110000#32 = .ok .seqList := by decide
theorem test_decode_seqTp : decode 0b00000000000000000000000000110001#32 = .ok .seqTp := by decide

/-- V-E14 to V-E17: reserved bits that are not 0. -/
theorem test_illegal_codec_words :
    decode 0x00000110#32 = .error .reservedBits ∧ decode 0x03FF0110#32 = .error .reservedBits ∧
    decode 0x01000012#32 = .error .reservedBits ∧ decode 0x00000112#32 = .error .reservedBits := by decide

/-- V-E18 to V-E24: opcodes of no command, and reserved bits of format N. -/
theorem test_illegal_other_words :
    decode 0x00000002#32 = .error .opcode ∧ decode 0x00000013#32 = .error .opcode ∧
    decode 0x000000FF#32 = .error .opcode ∧ decode 0x00000100#32 = .error .reservedBits ∧
    decode 0x80000000#32 = .error .reservedBits ∧ decode 0x00000131#32 = .error .reservedBits ∧
    decode 0x00010030#32 = .error .reservedBits := by decide

/-- Every row of the table decodes, and its word runs as the first instruction after reset. -/
theorem test_table_words :
    ∀ w ∈ [0x00, 0x01, 0x10, 0x11, 0x12, 0x20, 0x21, 0x22, 0x30, 0x31],
      (decodeTableWord 32 w).isSome = true ∧
      (match step (State.reset.withFetchWord 32 w) with | .next _ => true | _ => false) = true := by decide

/-! ## One step -/

/-- The state one engine step of a command leads to, when the command is placed in `s` (none if the step stops). -/
def after (cw : Nat) (s : State) : Option State :=
  match step (s.withFetchWord 32 cw) with
  | .next t => some t
  | _ => none

/-- What a host reads at `off` after that step. -/
def readAfter (off cw : Nat) (s : State) : Option Word := (after cw s).map fun t => memRead t off

/-- A state with the operand registers given. -/
def withRegs (r : OperandRegs) : State := { State.reset with regs := r }

/-- The operand registers after reset. -/
def regs0 : OperandRegs := OperandRegs.reset Params.spec

/-- CH_R = 1023, CH_G = 512, CH_B = 0, as in the source's examples. -/
def rgb : OperandRegs := { regs0 with chR := 1023, chG := 512, chB := 0 }

/-- Section 2.1: from reset, 0x000000FF gives STATUS = 0x01FF0600. -/
theorem test_illegal_status : readAfter 0x008 0x000000FF State.reset = some 0x01FF0600 := by decide

/-- V-C1: NOP after a failure clears CAUSE and ERRINFO and leaves DOUT. -/
theorem test_nop : readAfter 0x008 0x00000000 { State.reset with cause := .validationRange, doneCnt := 1 } = some 0x02000000 := by
  decide

/-- V-C2: LOG_CLEAR. -/
theorem test_logClear :
    readAfter 0x008 0x00000001 { State.reset with log := [⟨0x0600, 1, .ok⟩], logOvf := true, doneCnt := 1 } = some 0x02010000 ∧
    readAfter 0x04C 0x00000001 { State.reset with log := [⟨0x0600, 1, .ok⟩] } = some 0 := by decide

/-- V-P5. -/
theorem test_pack : readAfter 0x014 0x02010010 State.reset = some 0x02010201 := by decide

/-- V-P8: a value of 1024 leaves DOUT and sets CAUSE = 1. -/
theorem test_pack_range :
    readAfter 0x014 0x04000010 { State.reset with dout := ⟨0, 0, 514, 2, 2⟩ } = some 0x02020202 ∧
    readAfter 0x008 0x04000010 State.reset = some 0x01100100 := by decide

/-- R103: `unpack 0x00, 0xFF` gives 768. -/
theorem test_unpack : readAfter 0x014 0xFF000011 State.reset = some 0x03000300 := by decide

/-- R105: 128 gives 514, and 1 gives 4. -/
theorem test_rescale :
    readAfter 0x014 0x00800012 State.reset = some 0x02020202 ∧ readAfter 0x014 0x00010012 State.reset = some 0x00040004 := by
  decide

/-- V-R7, V-R8, V-R9. -/
theorem test_route :
    readAfter 0x014 0xFFFFFF20 State.reset = some 0x38000000 ∧ readAfter 0x014 0xFFFFFE20 State.reset = some 0x24000000 ∧
    readAfter 0x014 0x000FFF20 State.reset = some 0x14000000 := by decide

/-- V-X2, V-X3. -/
theorem test_pixel :
    readAfter 0x014 0x00000121 (withRegs rgb) = some 0x16000200 ∧ readAfter 0x014 0x00100021 (withRegs rgb) = some 0x26000200 := by
  decide

/-- V-X6, V-X8: only the selected channel is checked. -/
theorem test_pixel_range :
    readAfter 0x014 0x00000021 (withRegs { regs0 with chR := 5, chG := 1023, chB := 1024 }) = some 0x00050005 ∧
    readAfter 0x008 0x00100121 (withRegs { regs0 with chR := 5, chG := 1023, chB := 1024 }) = some 0x01210100 := by decide

/-- V-T3, V-T4, V-T6, V-T12: the Start step of STREAM. -/
theorem test_stream_start :
    readAfter 0x008 0x22 (withRegs { rgb with frameW := 4, frameH := 2, rowY1 := 3 }) = some 0x01220200 ∧
    readAfter 0x008 0x22 (withRegs { rgb with frameW := 4097, frameH := 2, rowY1 := 2 }) = some 0x01220200 ∧
    readAfter 0x008 0x22 (withRegs { rgb with frameW := 2, frameH := 2, rowY1 := 1, chB := 1024 }) = some 0x01220100 ∧
    readAfter 0x030 0x22 (withRegs { rgb with frameW := 3, frameH := 4, rowY0 := 3, rowY1 := 3 }) = some 0x00030000 := by
  decide

/-- The engine Busy in a phase, with a snapshot. -/
def busyAt (cw : Word) (snap : OperandRegs) (ph : Phase) : State :=
  { State.reset with engine := .busy cw snap ⟨[], 0⟩ ph }

/-- The state one step leads to. -/
def next (s : State) : Option State :=
  match step s with
  | .next t => some t
  | _ => none

/-- V-T1: the fifth pixel, (0, 1), is green: bytes 00 02, and POS moves to (1, 1). -/
theorem test_stream_emit :
    (next (busyAt 0x22 { rgb with frameW := 4, frameH := 2, rowY1 := 2 } (.streamEmit 0 1))).map
      (fun t => (t.pixOut, memRead t 0x030)) = some ([0x00, 0x02], 0x00010001) := by decide

/-- V-L3, V-L6: WL_LEN above WL_DEPTH; an entry at address 0xFFFF. -/
theorem test_seqList_start :
    readAfter 0x008 0x30 (withRegs { regs0 with wlLen := 9 }) = some 0x01300400 ∧
    readAfter 0x010 0x30 (withRegs { regs0 with wlLen := 1, wl := [⟨0xFFFF, 0⟩] }) = some 0x0000FFFF := by decide

/-- V-L9: the second write answered FAIL(15). -/
theorem test_seqList_fail :
    (next { busyAt 0x30 { regs0 with wlLen := 1, wl := [⟨0x0602, 0x03FF⟩] } (.seqWrite 0 .hi) with
        busAnswers := [.fail 14] }).map (fun t => (memRead t 0x010, memRead t 0x04C)) =
      some (0x000F0603, 0xF1030603) := by decide

/-- V-Q3, V-Q4: the first value above 1023 decides ERR_INDEX. -/
theorem test_seqTp_start :
    readAfter 0x010 0x31 (withRegs { regs0 with chB := 1024 }) = some 0x00400000 ∧
    readAfter 0x010 0x31 (withRegs { regs0 with tpeValue := 0x0400, chB := 1024 }) = some 0 := by decide

/-- V-Q2: the third write answered FAIL(2). -/
theorem test_seqTp_fail :
    (next { busyAt 0x31 rgb (.seqWrite 1 .lo) with busAnswers := [.fail 1] }).map
      (fun t => (memRead t 0x010, memRead t 0x04C, t.busHistory)) =
      some (0x00120602, 0x21FF0602, [⟨0x10, 0x0602, 0xFF, .fail 1⟩]) := by decide

/-- The machine with one turn to come. -/
def turn (t : Turn) : State := { State.reset with script := [t] }

/-- V-H6, V-H7, V-H8, V-H5. -/
theorem test_host_registers :
    (∀ off ∈ [0x054, 0x07C, 0x0A0, 0x00C], memRead State.reset off = 0) ∧
    (next (turn (.write 4 0x004 0xFFFFFFFF))).map (fun t => memRead t 0x004) = some 1 ∧
    (next (turn (.write 4 0x03C 0xFF))).map (fun t => memRead t 0x03C) = some 0x7F ∧
    (next (turn (.write 4 0x000 0))).map (fun t => memRead t 0x000) = some 0x30314752 := by decide

/-- V-H11, V-H12. -/
theorem test_rej :
    (next { turn (.write 4 0x008 0xFFFFFFF7) with rej := true }).map (fun t => t.rej) = some true ∧
    (next { turn (.write 4 0x008 0x00000008) with rej := true }).map (fun t => t.rej) = some false := by decide

/-- P5, steps h3 and h4: STATUS after an accepted word, and after a rejected one in phase SeqWrite. -/
theorem test_busy_status :
    (next (turn (.write 4 0x00C 0x30))).map (fun t => memRead t 0x008) = some 0x00000001 ∧
    (next { busyAt 0x30 regs0 (.seqWrite 0 .lo) with script := [.write 4 0x00C 0] }).map (fun t => memRead t 0x008) =
      some 0x0000000B := by decide

/-! ## Witnesses: for every statement with hypotheses, a state and operands that meet all of them together, clause by clause -/

/-- A step that leads on, as data `decide` can read. -/
def leadsOn (s : State) : Bool := (next s).isSome

/-- What `leadsOn` says. -/
theorem leadsOn_iff (s : State) : leadsOn s = true ↔ ∃ t, step s = .next t := by
  unfold leadsOn next
  split <;> simp_all

/-- The state `busyAt` builds: nothing in the script, the engine as asked. -/
def IsAt (s : State) (cw : Word) (snap : OperandRegs) (ph : Phase) : Prop :=
  s.script = [] ∧ s.engine = .busy cw snap ⟨[], 0⟩ ph

/-- Every Busy state of that kind exists. -/
theorem busyAt_isAt (cw : Word) (snap : OperandRegs) (ph : Phase) : IsAt (busyAt cw snap ph) cw snap ph := ⟨rfl, rfl⟩

/-- A word that decodes, at both ends of an operand's range. -/
theorem witness_EncodeOfDecode :
    decode 0x00000010#32 = .ok (.pack 0) ∧ decode 0xFFFF0010#32 = .ok (.pack 0xFFFF) ∧
    decode 0xFFFFFF20#32 = .ok (.route 4095 4095) := by decide

/-- R85's words: an unassigned opcode, and reserved bits of each format; given to an Idle engine, and held by a Busy one. -/
theorem witness_IllegalWordCompletesWithIllegalCmd :
    (illegalWord 0x00000002 ∧ illegalWord 0x80000000 ∧ illegalWord 0x01000012) ∧
    (illegalWord 0x110 ∧ (turn (.write 4 0x00C 0x110)).engine = .idle ∧
      (turn (.write 4 0x00C 0x110)).script = .write 4 0x00C 0x110 :: []) ∧
    (illegalWord 0x110 ∧ IsAt (busyAt 0x110 regs0 .start) 0x110 regs0 .start) :=
  ⟨by unfold illegalWord; decide, ⟨by unfold illegalWord; decide, rfl, rfl⟩, by unfold illegalWord; decide, busyAt_isAt _ _ _⟩

/-- `reservedIllegalN` for each of its opcodes: the lowest and the highest reserved bit, in a state that holds the word. -/
theorem witness_reservedIllegalN :
    (∀ op ∈ [0x00#8, 0x01#8, 0x22#8, 0x30#8, 0x31#8],
      ((0x000001#24 ++ op).toNat % 256 = op.toNat ∧ (0x000001#24 ++ op).toNat / 256 ≠ 0) ∧
      ((0x800000#24 ++ op).toNat % 256 = op.toNat ∧ (0x800000#24 ++ op).toNat / 256 ≠ 0)) ∧
    (∀ cw, IsAt (busyAt cw regs0 .start) cw regs0 .start) := ⟨by decide, fun _ => busyAt_isAt _ _ _⟩

/-- The largest operands of each pseudo-instruction. -/
theorem witness_HostPseudoInstructionsExpand : 0xFFFF < 2 ^ 16 ∧ 0xFFFFFFFF < 2 ^ 32 := by decide

theorem witness_StepRunsTheDecodedCommand :
    (decode 0x10 = .ok (.pack 0) ∧ IsAt (busyAt 0x10 regs0 .start) 0x10 regs0 .start) ∧
    (decode 0x10 = .ok (.pack 0) ∧
      ({ busyAt 0x10 regs0 .start with script := [.engine] }).engine = .busy 0x10 regs0 ⟨[], 0⟩ .start ∧
      ({ busyAt 0x10 regs0 .start with script := [.engine] }).script = .engine :: []) :=
  ⟨⟨by decide, busyAt_isAt _ _ _⟩, by decide, rfl, rfl⟩

theorem witness_IdleEngineKeepsAllState :
    (State.reset.engine = .idle ∧ State.reset.script = []) ∧ ((turn .engine).engine = .idle ∧ (turn .engine).script = .engine :: []) :=
  ⟨⟨rfl, rfl⟩, rfl, rfl⟩

theorem witness_PlacedCommandRunsNext : decode 0x31 = .ok .seqTp := by decide

/-- NOP, LOG_CLEAR, SEQ_TP and the Start step of every other command of format N. -/
theorem witness_formatN (cw : Word) : IsAt (busyAt cw regs0 .start) cw regs0 .start := busyAt_isAt _ _ _

/-- 1023, the largest legal value, and 1024, the smallest that fails; then a word with cw[15:8] = 1. -/
theorem witness_PackResult :
    ((0x03FF0010#32).toNat = (1023#16).toNat * 2 ^ 16 + 0x10 ∧ (1023#16).toNat ≤ 1023 ∧
      IsAt (busyAt 0x03FF0010 regs0 .start) 0x03FF0010 regs0 .start) ∧
    ((0x04000010#32).toNat = (1024#16).toNat * 2 ^ 16 + 0x10 ∧ 1023 < (1024#16).toNat ∧
      IsAt (busyAt 0x04000010 regs0 .start) 0x04000010 regs0 .start) ∧
    ((0x00000110#32).toNat % 256 = 0x10 ∧ (0x00000110#32).toNat / 256 % 256 ≠ 0 ∧
      IsAt (busyAt 0x00000110 regs0 .start) 0x00000110 regs0 .start) :=
  ⟨⟨by decide, by decide, busyAt_isAt _ _ _⟩, ⟨by decide, by decide, busyAt_isAt _ _ _⟩, by decide, by decide, busyAt_isAt _ _ _⟩

theorem witness_UnpackResult :
    ((0xFF000011#32).toNat = (0xFF#8).toNat * 2 ^ 24 + (0x00#8).toNat * 2 ^ 16 + 0x11 ∧
      IsAt (busyAt 0xFF000011 regs0 .start) 0xFF000011 regs0 .start) ∧
    ((0x00008011#32).toNat % 256 = 0x11 ∧ (0x00008011#32).toNat / 256 % 256 ≠ 0 ∧
      IsAt (busyAt 0x00008011 regs0 .start) 0x00008011 regs0 .start) :=
  ⟨⟨by decide, busyAt_isAt _ _ _⟩, by decide, by decide, busyAt_isAt _ _ _⟩

theorem witness_RescaleResult :
    ((0x00FF0012#32).toNat = (255#8).toNat * 2 ^ 16 + 0x12 ∧ IsAt (busyAt 0x00FF0012 regs0 .start) 0x00FF0012 regs0 .start) ∧
    ((0x00000112#32).toNat % 256 = 0x12 ∧ (0x00000112#32).toNat / 256 % 256 ≠ 0 ∧
      IsAt (busyAt 0x00000112 regs0 .start) 0x00000112 regs0 .start) ∧
    ((0x01000012#32).toNat % 256 = 0x12 ∧ (0x01000012#32).toNat / 2 ^ 24 ≠ 0 ∧
      IsAt (busyAt 0x01000012 regs0 .start) 0x01000012 regs0 .start) :=
  ⟨⟨by decide, busyAt_isAt _ _ _⟩, ⟨by decide, by decide, busyAt_isAt _ _ _⟩, by decide, by decide, busyAt_isAt _ _ _⟩

theorem witness_RescaleIsMonotoneAndNearest : (127#8) < (128#8) ∧ (0#8) < (255#8) := by decide

theorem witness_RouteResult :
    ((0xFFFFFF20#32).toNat = (4095#12).toNat * 2 ^ 20 + (4095#12).toNat * 2 ^ 8 + 0x20 ∧
      IsAt (busyAt 0xFFFFFF20 regs0 .start) 0xFFFFFF20 regs0 .start) ∧
    ((0x00000020#32).toNat = (0#12).toNat * 2 ^ 20 + (0#12).toNat * 2 ^ 8 + 0x20 ∧
      IsAt (busyAt 0x00000020 regs0 .start) 0x00000020 regs0 .start) :=
  ⟨⟨by decide, busyAt_isAt _ _ _⟩, by decide, busyAt_isAt _ _ _⟩

/-- A source that answers 1023 at (0, 0) and 1024 at (1, 1). -/
def source2 : ExtSource := ⟨[⟨0, 0, .r, 1023⟩, ⟨1, 1, .b, 1024⟩], 0⟩

/-- A pixel at 1023 and one at 1024, in uniform mode and from the external source. -/
theorem witness_PixelResult :
    (0x00000021#32).toNat = (0#12).toNat * 2 ^ 20 + (0#12).toNat * 2 ^ 8 + 0x21 ∧
    (0x00100121#32).toNat = (1#12).toNat * 2 ^ 20 + (1#12).toNat * 2 ^ 8 + 0x21 ∧
    pixelRaw { regs0 with chR := 1023 } ⟨[], 0⟩ (0#12).toNat (0#12).toNat ≤ 1023 ∧
    1023 < pixelRaw { regs0 with chB := 1024 } ⟨[], 0⟩ (1#12).toNat (1#12).toNat ∧
    pixelRaw { regs0 with src := 1 } source2 (0#12).toNat (0#12).toNat ≤ 1023 ∧
    1023 < pixelRaw { regs0 with src := 1 } source2 (1#12).toNat (1#12).toNat ∧
    (∀ cw snap, (busyAt cw snap .start).engine = .busy cw snap ⟨[], 0⟩ .start) ∧
    (∀ cw snap, ({ busyAt cw snap .start with engine := .busy cw snap source2 .start }).engine = .busy cw snap source2 .start) :=
  ⟨by decide, by decide, by decide, by decide, by decide, by decide, fun _ _ => rfl, fun _ _ => rfl⟩

/-- A snapshot for a stream of rows [y0, y1) of a w by h frame. -/
def frameRegs (w h y0 y1 : BitVec 16) : OperandRegs := { rgb with frameW := w, frameH := h, rowY0 := y0, rowY1 := y1 }

/-- R127's dimension checks, each at its boundary: 4097 columns, 4097 rows, Y0 > Y1, Y1 = H + 1. -/
theorem witness_dimBad :
    dimBad 4096 (frameRegs 4097 2 0 2) ∧ dimBad 4096 (frameRegs 4 4097 0 2) ∧ dimBad 4096 (frameRegs 4 2 2 1) ∧
    dimBad 4096 (frameRegs 4 2 0 3) := by unfold dimBad; decide

/-- The legal side of each: 4096 columns, Y1 = H = 4096, an empty row range, no columns. -/
theorem witness_not_dimBad :
    ¬ dimBad 4096 (frameRegs 4096 4096 0 4096) ∧ ¬ dimBad 4096 (frameRegs 3 4 3 3) ∧ ¬ dimBad 4096 (frameRegs 0 5 0 5) ∧
    ¬ dimBad 4096 (frameRegs 4 2 0 2) ∧ ¬ dimBad 4096 (frameRegs 4 4 1 3) := by unfold dimBad; decide

theorem witness_valueBad :
    valueBad { frameRegs 2 2 0 1 with chB := 1024 } ⟨[], 0⟩ ∧ valueBad { frameRegs 2 2 0 2 with src := 1 } source2 :=
  ⟨.inl (by decide), .inr ⟨by decide, 1, 1, by decide⟩⟩

/-- Uniform values of at most 1023 pass, whatever the frame; so does an external source that answers 1023 on a 1 by 1 frame. -/
theorem witness_not_valueBad :
    (∀ w h y0 y1, ¬ valueBad (frameRegs w h y0 y1) ⟨[], 0⟩) ∧ ¬ valueBad { frameRegs 1 1 0 1 with src := 1 } source2 := by
  refine ⟨fun w h y0 y1 => ?_, ?_⟩
  · rintro (⟨-, hc⟩ | ⟨hs, -⟩)
    · simp [frameRegs, rgb] at hc
    · exact hs rfl
  · rintro (⟨hs, -⟩ | ⟨-, x, y, hx, -, hy, hv⟩)
    · simp at hs
    · have hx' : x = 0 := by simpa [frameRegs] using hx
      have hy' : y = 0 := by simpa [frameRegs] using hy
      subst hx' hy'
      revert hv
      decide

/-- The cases of STREAM's Start step: a failed check (as `witness_dimBad` and `witness_valueBad` show), no columns, no rows, and
pixels to emit. -/
theorem witness_StreamValidatesBeforeEmitting :
    (IsAt (busyAt 0x22 (frameRegs 4097 2 0 2) .start) 0x22 (frameRegs 4097 2 0 2) .start ∧
      dimBad (busyAt 0x22 (frameRegs 4097 2 0 2) .start).params.maxDim (frameRegs 4097 2 0 2)) ∧
    (IsAt (busyAt 0x22 { frameRegs 2 2 0 1 with chB := 1024 } .start) 0x22 { frameRegs 2 2 0 1 with chB := 1024 } .start ∧
      ¬ dimBad 4096 { frameRegs 2 2 0 1 with chB := 1024 } ∧ valueBad { frameRegs 2 2 0 1 with chB := 1024 } ⟨[], 0⟩) ∧
    (IsAt (busyAt 0x22 (frameRegs 0 5 0 5) .start) 0x22 (frameRegs 0 5 0 5) .start ∧ (frameRegs 0 5 0 5).frameW = 0#16 ∧
      ¬ dimBad 4096 (frameRegs 0 5 0 5) ∧ ¬ valueBad (frameRegs 0 5 0 5) ⟨[], 0⟩) ∧
    (IsAt (busyAt 0x22 (frameRegs 3 4 3 3) .start) 0x22 (frameRegs 3 4 3 3) .start ∧
      (frameRegs 3 4 3 3).rowY0 = (frameRegs 3 4 3 3).rowY1 ∧
      ¬ dimBad 4096 (frameRegs 3 4 3 3) ∧ ¬ valueBad (frameRegs 3 4 3 3) ⟨[], 0⟩) ∧
    (IsAt (busyAt 0x22 (frameRegs 4 2 0 2) .start) 0x22 (frameRegs 4 2 0 2) .start ∧ (frameRegs 4 2 0 2).frameW ≠ 0#16 ∧
      (frameRegs 4 2 0 2).rowY0 ≠ (frameRegs 4 2 0 2).rowY1 ∧
      ¬ dimBad 4096 (frameRegs 4 2 0 2) ∧ ¬ valueBad (frameRegs 4 2 0 2) ⟨[], 0⟩) :=
  ⟨⟨busyAt_isAt _ _ _, witness_dimBad.1⟩, ⟨busyAt_isAt _ _ _, by unfold dimBad; decide, witness_valueBad.1⟩,
    ⟨busyAt_isAt _ _ _, rfl, witness_not_dimBad.2.2.1, witness_not_valueBad.1 _ _ _ _⟩,
    ⟨busyAt_isAt _ _ _, rfl, witness_not_dimBad.2.1, witness_not_valueBad.1 _ _ _ _⟩,
    busyAt_isAt _ _ _, by decide, by decide, witness_not_dimBad.2.2.2.1, witness_not_valueBad.1 _ _ _ _⟩

/-- A pixel inside its row, the last of a row, and the last of the range. -/
theorem witness_StreamEmitsOnePixelAStep :
    (IsAt (busyAt 0x22 (frameRegs 4 2 0 2) (.streamEmit 0 0)) 0x22 (frameRegs 4 2 0 2) (.streamEmit 0 0) ∧
      pixelRaw (frameRegs 4 2 0 2) ⟨[], 0⟩ 0 0 ≤ 1023 ∧
      (1, 0) = (if 0 + 1 < (frameRegs 4 2 0 2).frameW.toNat then (0 + 1, 0) else (0, 0 + 1)) ∧
      0 ≠ (frameRegs 4 2 0 2).rowY1.toNat) ∧
    (IsAt (busyAt 0x22 (frameRegs 4 2 0 2) (.streamEmit 3 0)) 0x22 (frameRegs 4 2 0 2) (.streamEmit 3 0) ∧
      pixelRaw (frameRegs 4 2 0 2) ⟨[], 0⟩ 3 0 ≤ 1023 ∧
      (0, 1) = (if 3 + 1 < (frameRegs 4 2 0 2).frameW.toNat then (3 + 1, 0) else (0, 0 + 1)) ∧
      1 ≠ (frameRegs 4 2 0 2).rowY1.toNat) ∧
    (IsAt (busyAt 0x22 (frameRegs 4 2 0 2) (.streamEmit 3 1)) 0x22 (frameRegs 4 2 0 2) (.streamEmit 3 1) ∧
      pixelRaw (frameRegs 4 2 0 2) ⟨[], 0⟩ 3 1 ≤ 1023 ∧
      (0, 2) = (if 3 + 1 < (frameRegs 4 2 0 2).frameW.toNat then (3 + 1, 1) else (0, 1 + 1)) ∧
      2 = (frameRegs 4 2 0 2).rowY1.toNat) :=
  ⟨⟨busyAt_isAt _ _ _, by decide, by decide, by decide⟩, ⟨busyAt_isAt _ _ _, by decide, by decide, by decide⟩,
    busyAt_isAt _ _ _, by decide, by decide, by decide⟩

/-- A whole stream of pixels, and one without columns. -/
theorem witness_StreamEmitsItsWholeRange :
    (IsAt (busyAt 0x22 (frameRegs 4 2 0 2) .start) 0x22 (frameRegs 4 2 0 2) .start ∧
      ¬ dimBad (busyAt 0x22 (frameRegs 4 2 0 2) .start).params.maxDim (frameRegs 4 2 0 2) ∧
      ¬ valueBad (frameRegs 4 2 0 2) ⟨[], 0⟩) ∧
    (IsAt (busyAt 0x22 (frameRegs 0 5 0 5) .start) 0x22 (frameRegs 0 5 0 5) .start ∧
      ¬ dimBad (busyAt 0x22 (frameRegs 0 5 0 5) .start).params.maxDim (frameRegs 0 5 0 5) ∧
      ¬ valueBad (frameRegs 0 5 0 5) ⟨[], 0⟩) :=
  ⟨⟨busyAt_isAt _ _ _, witness_not_dimBad.2.2.2.1, witness_not_valueBad.1 _ _ _ _⟩,
    busyAt_isAt _ _ _, witness_not_dimBad.2.2.1, witness_not_valueBad.1 _ _ _ _⟩

/-- Rows [1, 3) split at their ends and in the middle. -/
theorem witness_StreamsOfRowRangesConcatenate :
    (∀ k ∈ [1#16, 2#16, 3#16], (frameRegs 4 4 1 3).rowY0 ≤ k ∧ k ≤ (frameRegs 4 4 1 3).rowY1) ∧
    IsAt (busyAt 0x22 (frameRegs 4 4 1 3) .start) 0x22 (frameRegs 4 4 1 3) .start ∧
    (∀ k, IsAt (busyAt 0x22 { frameRegs 4 4 1 3 with rowY1 := k } .start) 0x22 { frameRegs 4 4 1 3 with rowY1 := k } .start) ∧
    (∀ k, IsAt (busyAt 0x22 { frameRegs 4 4 1 3 with rowY0 := k } .start) 0x22 { frameRegs 4 4 1 3 with rowY0 := k } .start) ∧
    ¬ dimBad (busyAt 0x22 (frameRegs 4 4 1 3) .start).params.maxDim (frameRegs 4 4 1 3) ∧
    ¬ valueBad (frameRegs 4 4 1 3) ⟨[], 0⟩ :=
  ⟨by simp [frameRegs], busyAt_isAt _ _ _, fun _ => busyAt_isAt _ _ _, fun _ => busyAt_isAt _ _ _,
    witness_not_dimBad.2.2.2.2, witness_not_valueBad.1 _ _ _ _⟩

theorem witness_FullFrameStreamIsTheRawFile :
    IsAt (busyAt 0x22 (frameRegs 4 2 0 2) .start) 0x22 (frameRegs 4 2 0 2) .start ∧ (frameRegs 4 2 0 2).rowY0 = 0 ∧
    (frameRegs 4 2 0 2).rowY1 = (frameRegs 4 2 0 2).frameH ∧
    ¬ dimBad (busyAt 0x22 (frameRegs 4 2 0 2) .start).params.maxDim (frameRegs 4 2 0 2) ∧
    ¬ valueBad (frameRegs 4 2 0 2) ⟨[], 0⟩ ∧ 0 < (frameRegs 4 2 0 2).frameW.toNat * (frameRegs 4 2 0 2).frameH.toNat :=
  ⟨busyAt_isAt _ _ _, rfl, rfl, witness_not_dimBad.2.2.2.1, witness_not_valueBad.1 _ _ _ _, by decide⟩

/-- A snapshot with a write list. -/
def listRegs (n : Byte) (wl : List TxEntry) : OperandRegs := { regs0 with wlLen := n, wl := wl }

/-- R153's length check at WL_DEPTH + 1 and at WL_DEPTH; V-L8, V-L7: the first bad entry, by its address and by its value; V-L2,
V-L5: an empty list, and a list whose one entry ends at the last address. -/
theorem witness_SeqListStart :
    (∀ n wl, IsAt (busyAt 0x30 (listRegs n wl) .start) 0x30 (listRegs n wl) .start) ∧
    Params.spec.wlDepth < (listRegs 9 []).wlLen.toNat ∧ (listRegs 8 []).wlLen.toNat ≤ Params.spec.wlDepth ∧
    ((listRegs 3 []).wlLen.toNat ≤ Params.spec.wlDepth ∧
      seqEntries false (listRegs 3 [⟨0x0602, 1023⟩, ⟨0x0604, 0⟩, ⟨0xFFFF, 0⟩]) = [⟨0x0602, 1023⟩, ⟨0x0604, 0⟩, ⟨0xFFFF, 0⟩] ∧
      seqEntries false (listRegs 2 [⟨0x0602, 1023⟩, ⟨0x0604, 1024⟩]) = [⟨0x0602, 1023⟩, ⟨0x0604, 1024⟩] ∧
      entryGood ⟨0x0602, 1023⟩ ∧ entryGood ⟨0x0604, 0⟩ ∧ ¬ entryGood ⟨0xFFFF, 0⟩ ∧ ¬ entryGood ⟨0x0604, 1024⟩) ∧
    seqEntries false (listRegs 0 [⟨0xFFFF, 0⟩]) = [] ∧
    (seqEntries false (listRegs 1 [⟨0xFFFE, 1023⟩]) ≠ [] ∧ ∀ e ∈ seqEntries false (listRegs 1 [⟨0xFFFE, 1023⟩]), entryGood e) :=
  ⟨fun _ _ => busyAt_isAt _ _ _, by decide, by decide, by unfold entryGood; decide, by decide, by unfold entryGood; decide⟩

/-- The four range checks of SEQ_TP, each the first to fail at 1024, and none failing at 1023. -/
theorem witness_SeqTpStart :
    (∀ snap, IsAt (busyAt 0x31 snap .start) 0x31 snap .start) ∧
    1023 < ({ regs0 with tpeValue := 1024 }).tpeValue.toNat ∧ 1023 < ({ regs0 with chR := 1024 }).chR.toNat ∧
    1023 < ({ regs0 with chG := 1024 }).chG.toNat ∧ 1023 < ({ regs0 with chB := 1024 }).chB.toNat ∧
    ¬ 1023 < ({ regs0 with chB := 1023 }).chB.toNat :=
  ⟨fun _ => busyAt_isAt _ _ _, by decide, by decide, by decide, by decide, by decide⟩

/-- Both commands, both halves, first and last entry; the log with room and full; both answers of the bus. -/
theorem witness_SeqWriteStep :
    let s := { busyAt (seqWord true) rgb (.seqWrite 4 .hi) with busAnswers := [.ok] }
    let u := { busyAt (seqWord false) (listRegs 1 [⟨0xFFFE, 1023⟩]) (.seqWrite 0 .lo) with
      params := { Params.spec with logDepth := 1 }, log := [⟨0, 0, .ok⟩], busAnswers := [.fail 14] }
    (s.engine = .busy (seqWord true) rgb ⟨[], 0⟩ (.seqWrite 4 .hi) ∧ (seqEntries true rgb)[4]? = some ⟨0x0608, 0⟩ ∧
      (0#16).toNat ≤ 1023 ∧ s.log.length ≤ s.params.logDepth ∧ busOutcome s = .ok) ∧
    (u.engine = .busy (seqWord false) (listRegs 1 [⟨0xFFFE, 1023⟩]) ⟨[], 0⟩ (.seqWrite 0 .lo) ∧
      (seqEntries false (listRegs 1 [⟨0xFFFE, 1023⟩]))[0]? = some ⟨0xFFFE, 1023⟩ ∧ (1023#16).toNat ≤ 1023 ∧
      u.log.length ≤ u.params.logDepth ∧ busOutcome u = .fail 14) :=
  ⟨⟨rfl, by decide, by decide, by decide, rfl⟩, rfl, by decide, by decide, by decide, rfl⟩

/-- Before another pair, and after the last. -/
theorem witness_SeqSettleStep :
    (IsAt (busyAt (seqWord true) rgb (.seqSettle 3)) (seqWord true) rgb (.seqSettle 3) ∧ 3 + 1 < (seqEntries true rgb).length) ∧
    (IsAt (busyAt (seqWord true) rgb (.seqSettle 4)) (seqWord true) rgb (.seqSettle 4) ∧ 4 + 1 = (seqEntries true rgb).length) :=
  ⟨⟨busyAt_isAt _ _ _, by decide⟩, busyAt_isAt _ _ _, by decide⟩

/-- A transaction of either command with all its answers known, from a full log. -/
theorem witness_TransactionWritesItsWholeList (tp : Bool) :
    let snap := { rgb with wlLen := 1, wl := [⟨0xFFFE, 1023⟩] }
    let s := { busyAt (seqWord tp) snap .start with
      params := { Params.spec with logDepth := 1 }, log := [⟨0, 0, .ok⟩]
      busAnswers := List.replicate (2 * (seqEntries tp snap).length) BusOutcome.ok ++ [BusOutcome.fail 3] }
    s.script = [] ∧ s.engine = .busy (seqWord tp) snap ⟨[], 0⟩ .start ∧ (tp = false → snap.wlLen.toNat ≤ s.params.wlDepth) ∧
    (∀ e ∈ seqEntries tp snap, e.addr ≠ 0xFFFF#16 ∧ e.value.toNat ≤ 1023) ∧ s.log.length ≤ s.params.logDepth ∧
    s.busAnswers = List.replicate (2 * (seqEntries tp snap).length) .ok ++ [.fail 3] := by
  cases tp <;> exact ⟨rfl, rfl, by decide, by decide, by decide, rfl⟩

/-- R157's run of SEQ_TP, the failure at its third write; and failures at its first and its last. -/
theorem witness_TransactionAbortsAtTheFirstFailure :
    let s := fun k : Nat => { busyAt (seqWord true) rgb .start with busAnswers := List.replicate k BusOutcome.ok ++ [.fail 1] }
    (∀ k, IsAt (s k) (seqWord true) rgb .start ∧ (s k).busAnswers = List.replicate k .ok ++ .fail 1 :: []) ∧
    (∀ e ∈ seqEntries true rgb, e.addr ≠ 0xFFFF#16 ∧ e.value.toNat ≤ 1023) ∧ (s 2).log.length ≤ (s 2).params.logDepth ∧
    (txWrites (seqEntries true rgb))[0]? = some (0x0600, 0x01) ∧ (txWrites (seqEntries true rgb))[2]? = some (0x0602, 0xFF) ∧
    (txWrites (seqEntries true rgb))[9]? = some (0x0609, 0x00) :=
  ⟨fun _ => ⟨⟨rfl, rfl⟩, rfl⟩, by decide, by decide, by decide, by decide, by decide⟩

theorem witness_CmdWriteIsAcceptedOrRejected :
    ((turn (.write 4 0x00C 0x10)).script = .write 4 0x00C 0x10 :: [] ∧ (turn (.write 4 0x00C 0x10)).engine = .idle) ∧
    (({ busyAt 0x30 regs0 .start with script := [.write 4 0x00C 0] }).script = .write 4 0x00C 0 :: [] ∧
      ({ busyAt 0x30 regs0 .start with script := [.write 4 0x00C 0] }).engine ≠ .idle) := by decide

/-- Requests at both ends of the coordinates: listed twice (the first counts), and not listed. -/
theorem witness_SourceIsTakenAtAcceptance :
    ((turn (.write 4 0x00C 0x21)).script = .write 4 0x00C 0x21 :: [] ∧ (turn (.write 4 0x00C 0x21)).engine = .idle) ∧
    (turn (.source [⟨0, 0, .r, 1⟩])).script = .source [⟨0, 0, .r, 1⟩] :: [] ∧
    (answers ⟨0, 0, .r, 1⟩ 0 0 .r ∧ ∀ b ∈ ([] : List ExtSample), ¬ answers b 0 0 .r) ∧
    (answers ⟨0xFFFF, 1, .g, 5⟩ 0xFFFF 1 .g ∧ ∀ b ∈ [⟨0xFFFF, 1, .b, 4⟩], ¬ answers b 0xFFFF 1 .g) ∧
    (∀ b ∈ [⟨0, 0, .r, 1⟩], ¬ answers b 0 0 .b) := by unfold answers; decide

/-- What a source answers to a listed request, not shadowed by the entries beside it. -/
theorem test_extSrc :
    extSrc ⟨[⟨1, 0, .g, 1⟩, ⟨0, 1, .g, 1023⟩, ⟨0, 1, .g, 2⟩], 3⟩ 0 1 .g = 1023 ∧
    extSrc ⟨[⟨0, 0, .b, 1⟩, ⟨0, 0, .r, 7⟩], 0⟩ 0 0 .r = 7 := by decide

theorem witness_PollReadsStatusAgainWhileBusy :
    ((turn .poll).script = .poll :: [] ∧ (turn .poll).engine = .idle) ∧
    (({ busyAt 0x30 regs0 .start with script := [.poll] }).script = .poll :: [] ∧
      ({ busyAt 0x30 regs0 .start with script := [.poll] }).engine ≠ .idle) := by decide

theorem witness_StatusWriteOnlyClearsRej : (turn (.write 4 0x008 8)).script = .write 4 0x008 8 :: [] := rfl

/-- The first and last WL entry; the first and last reserved offset below WL, and the first above its entries. -/
theorem witness_ReadsReturnTheNamedFields :
    (∀ i ∈ [0, 7], i < State.reset.params.wlDepth ∧ State.reset.regs.wl[i]? = some ⟨0, 0⟩) ∧
    (∀ off ∈ [0x054, 0x07C, 0x0A0, 0x0FC], off % 4 = 0 ∧
      ((0x054 ≤ off ∧ off < 0x080) ∨ 0x080 + 4 * State.reset.params.wlDepth ≤ off)) := by decide

/-- The last entry of the log, and the index one past it. -/
theorem witness_LogEntryShowsTheSelectedEntry :
    (({ State.reset with log := [⟨0x0602, 0xFF, .fail 1⟩] }).log[(0#16).toNat]? = some ⟨0x0602, 0xFF, .fail 1⟩) ∧
    ({ State.reset with log := [⟨0x0602, 0xFF, .fail 1⟩], logSel := 1 }).log.length ≤ (1#16).toNat := by decide

/-- The last admitted offset. -/
theorem witness_HostReadsHaveNoSideEffect :
    (turn (.read 4 0xFC)).script = .read 4 0xFC :: [] ∧ 0xFC % 4 = 0 ∧ 0xFC < 0x100 := by decide

/-- An access that breaks each of R64's three conditions alone. -/
theorem witness_OtherHostAccessesAreRefused :
    ((turn (.write 2 0x004 1)).script = .write 2 0x004 1 :: [] ∧ 2 ≠ 4) ∧
    ((turn (.read 4 0x002)).script = .read 4 0x002 :: [] ∧ 0x002 % 4 ≠ 0) ∧
    ((turn (.read 4 0x100)).script = .read 4 0x100 :: [] ∧ 0x100 ≤ 0x100) := by decide

/-- A write to a register of each width, the first and the last WL entry among them. -/
theorem witness_WrittenRegistersReadBack :
    State.reset.regs.wl.length = State.reset.params.wlDepth ∧ State.reset.params.wf = true ∧
    (∀ off ∈ [0x004, 0x018, 0x028, 0x03C, 0x040, 0x048, 0x080, 0x09C],
      (rwBits State.reset.params.wlDepth off).isSome = true ∧
        (turn (.write 4 off 0xFFFFFFFF)).script = .write 4 off 0xFFFFFFFF :: []) := by decide

/-- R31, R44: which half of the word each field of FRAME_DIM and of WL[7] takes. -/
theorem test_twoFieldWrites :
    (next (turn (.write 4 0x028 0x00020003))).map (fun t => (t.regs.frameW, t.regs.frameH)) = some (3, 2) ∧
    (next (turn (.write 4 0x09C 0x03FF0602))).map (fun t => t.regs.wl[7]?) = some (some ⟨0x0602, 0x03FF⟩) := by decide

/-- Two registers side by side, and the two ends of the window. -/
theorem witness_WritesLeaveOtherRegisters :
    ∀ p ∈ [(0x018, 0x01C), (0x080, 0x084), (0x000, 0x0FC), (0x048, 0x044), (0x044, 0x04C)],
      p.1 % 4 = 0 ∧ p.2 % 4 = 0 ∧ p.2 ≠ p.1 ∧ p.1 ≠ 0x00C ∧ ¬ (p.1 = 0x048 ∧ p.2 = 0x04C) := by decide

theorem witness_ReadOnlyWritesHaveNoEffect :
    (∀ off ∈ [0x000, 0x050, 0x054, 0x07C, 0x0A0, 0x0FC],
      off % 4 = 0 ∧ off < 0x100 ∧ writeIgnored State.reset.params.wlDepth off) ∧
    (∀ off v, (turn (.write 4 off v)).script = .write 4 off v :: []) :=
  ⟨by unfold writeIgnored; decide, fun _ _ => rfl⟩

/-- The coming turn is the engine's: by an empty script, and by a turn that stands between two of the host's (R191). -/
theorem witness_EngineNext (cw : Word) (snap : OperandRegs) (ph : Phase) :
    EngineNext (busyAt cw snap ph) [] ∧
    EngineNext { busyAt cw snap ph with script := [.engine, .read 4 0x008] } [.read 4 0x008] ∧
    ({ busyAt cw snap ph with script := [.engine, .read 4 0x008] }).engine = .busy cw snap ⟨[], 0⟩ ph :=
  ⟨.inl ⟨rfl, rfl⟩, .inr rfl, rfl⟩

/-- Steps that lead on, from an engine turn of every phase and from every other kind of turn: the hypotheses of the statements
about every step (RunningCommandNeverSeesHostWrites, HistoriesOnlyGrow, CommandsNeverWriteOperands,
BusyCommandKeepsItsOperands, CompletionFieldsChangeOnlyAtCompletion). -/
theorem witness_steps :
    ∀ s ∈ [State.reset, busyAt 0x10 regs0 .start, busyAt 0x04000010 regs0 .start, busyAt 0x01 regs0 .start,
        busyAt 0x22 (frameRegs 4 2 0 2) .start, busyAt 0x22 (frameRegs 4 2 0 2) (.streamEmit 3 1),
        busyAt 0x31 rgb .start, { busyAt 0x31 rgb (.seqWrite 4 .hi) with busAnswers := [.ok] },
        { busyAt 0x31 rgb (.seqWrite 4 .hi) with busAnswers := [.fail 0] }, busyAt 0x31 rgb (.seqSettle 4),
        { busyAt 0x04000010 regs0 .start with script := [.engine, .read 4 0x008] },
        turn .engine, turn (.read 4 0), turn (.write 4 0x00C 0), turn .poll, turn (.source []), turn .reset],
      leadsOn s = true := by decide

/-- The steps the conditional clauses of the whole-machine statements speak of: DOUT changed and a pixel emitted
(OutputsAreWrittenOnlyByTheirCommands), the handle taken and a byte written (BusHandleIsScoped), an entry logged and the log
cleared (LogChangesOnlyAsItsRulesSay), a failure completed (ErrorsArePrecise). -/
theorem witness_changes :
    (next (busyAt 0x02010010 regs0 .start)).map (fun t => t.dout.sample) = some 513 ∧
    (next (busyAt 0x22 (frameRegs 4 2 0 2) (.streamEmit 3 1))).map (fun t => t.pixOut.length) = some 2 ∧
    (next (busyAt 0x31 rgb .start)).map (fun t => t.engine.ownsBus) = some true ∧
    (next { busyAt 0x31 rgb (.seqWrite 4 .hi) with busAnswers := [.ok] }).map (fun t => (t.busHistory.length, t.log.length)) =
      some (1, 1) ∧
    (next (busyAt 0x01 regs0 .start)).map (fun t => t.log) = some [] ∧
    (next (busyAt 0x04000010 regs0 .start)).map (fun t => (t.cause, t.engine)) = some (.validationRange, .idle) ∧
    (next { busyAt 0x04000010 regs0 .start with script := [.engine, .read 4 0x008] }).map
      (fun t => (t.cause, t.engine, t.script)) = some (.validationRange, .idle, [.read 4 0x008]) := by decide

/-- A command's last step. -/
theorem witness_EachCommandEndsWithItsCauses :
    (busyAt 0x10 regs0 .start).engine ≠ .idle ∧
    exec (.pack 0) (busyAt 0x10 regs0 .start) =
      .next (ended { busyAt 0x10 regs0 .start with dout := ⟨0, 0, 0, 0, 0⟩ } .ok ⟨0, 0, 0⟩ 0x10) :=
  ⟨by decide, rfl⟩

theorem witness_ResetStep : (turn .reset).params.wf = true ∧ (turn .reset).script = .reset :: [] := by decide

/-- The invariant's parts that do not speak of the engine, at reset. -/
theorem invariant_reset :
    State.reset.params.wf = true ∧ State.reset.regs.wl.length = State.reset.params.wlDepth ∧
    State.reset.log.length ≤ State.reset.params.logDepth ∧ ErrInfoOk State.reset.cause State.reset.errInfo State.reset.lastOp ∧
    DoutOk State.reset.dout :=
  ⟨by decide, by decide, by decide, rfl, ⟨by decide, by decide, by decide⟩⟩

/-- A failed PACK's ERRINFO: index 0 passes, any other does not; a failed SEQ_LIST's index is free (R183). -/
theorem test_errInfoOk :
    ErrInfoOk .validationRange ⟨0, 0, 0⟩ 0x10 ∧ ¬ ErrInfoOk .validationRange ⟨0, 0, 1⟩ 0x10 ∧
    ErrInfoOk .validationRange ⟨0, 0, 7⟩ 0x30 := by unfold ErrInfoOk; decide

/-- The invariant at a Busy state built from reset. -/
theorem invariant_busyAt {cw : Word} {snap : OperandRegs} {ph : Phase} (h : EngineOk (busyAt cw snap ph)) :
    Machine.Invariant (busyAt cw snap ph) :=
  ⟨invariant_reset.1, invariant_reset.2.1, invariant_reset.2.2.1, invariant_reset.2.2.2.1, invariant_reset.2.2.2.2, h⟩

/-- The start of any command, from the invariant. -/
theorem witness_EveryCommandEndsWithinItsBound (cw : Word) :
    Machine.Invariant (busyAt cw rgb .start) ∧ IsAt (busyAt cw rgb .start) cw rgb .start :=
  ⟨invariant_busyAt rfl, busyAt_isAt _ _ _⟩

/-- Before the last byte of SEQ_TP's last entry. -/
theorem witness_EveryEngineTurnMakesProgress :
    Machine.Invariant (busyAt 0x31 rgb (.seqWrite 4 .hi)) ∧ EngineNext (busyAt 0x31 rgb (.seqWrite 4 .hi)) [] ∧
    (busyAt 0x31 rgb (.seqWrite 4 .hi)).engine ≠ .idle :=
  ⟨invariant_busyAt ⟨rfl, seqTpEntries rgb, rfl, by decide, by decide, by unfold EntriesOk; decide⟩, .inl ⟨rfl, rfl⟩, by decide⟩

/-- Before the first pixel of a stream: the invariant, and a step that leads on. -/
theorem witness_StepKeepsTheInvariant :
    Machine.Invariant (busyAt 0x22 (frameRegs 4 2 0 2) (.streamEmit 0 0)) ∧
    leadsOn (busyAt 0x22 (frameRegs 4 2 0 2) (.streamEmit 0 0)) = true := by
  refine ⟨invariant_busyAt ⟨rfl, by decide, ⟨by decide, by decide, by decide, fun x y _ _ _ => ?_⟩, ?_⟩, by decide⟩
  · show (uniformVal (frameRegs 4 2 0 2) (chan x y)).toNat ≤ 1023
    cases chan x y <;> decide
  · exact ⟨by decide, by decide, by decide, rfl, rfl, rfl⟩

/-- A host polling a Busy engine; an engine turn to come. -/
theorem witness_PollingEnds :
    (Machine.Invariant { busyAt 0x31 rgb .start with script := [.poll] } ∧
      ({ busyAt 0x31 rgb .start with script := [.poll] }).script = .poll :: []) ∧
    (Machine.Invariant (turn .engine) ∧ (turn .engine).script = .engine :: []) :=
  ⟨⟨⟨invariant_reset.1, invariant_reset.2.1, invariant_reset.2.2.1, invariant_reset.2.2.2.1, invariant_reset.2.2.2.2, rfl⟩, rfl⟩,
    ⟨invariant_reset.1, invariant_reset.2.1, invariant_reset.2.2.1, invariant_reset.2.2.2.1, invariant_reset.2.2.2.2, trivial⟩, rfl⟩

/-- The invariant at reset, with no turn to come (EngineIsNeverStuck, and StepKeepsTheInvariant for an Idle engine). -/
theorem witness_EngineIsNeverStuck : Machine.Invariant State.reset ∧ State.reset.script = [] :=
  ⟨⟨invariant_reset.1, invariant_reset.2.1, invariant_reset.2.2.1, invariant_reset.2.2.2.1, invariant_reset.2.2.2.2, trivial⟩, rfl⟩

end Sys2Proof.Tests
end

section
/-! # The invariant: it holds after reset, and every step of every agent keeps it

`Invariant` is taken apart once (`invariant_iff`) into three parts that move separately: the data registers (`DataOk`), the
completion record (`ErrInfoOk`) and the engine (`EngineOk`). Each part has its lemma over `Move`, the list of what an engine
turn can do; `StepKind` then gives the other agents' turns. -/

namespace Sys2Proof.Machine

/-! ### The parts of the invariant -/

/-- The part of the invariant that speaks of neither a completion's record nor the engine (R7, R44, R38, R28). -/
def DataOk (s : State) : Prop :=
  s.params.wf = true ∧ s.regs.wl.length = s.params.wlDepth ∧ s.log.length ≤ s.params.logDepth ∧ DoutOk s.dout

theorem invariant_iff {s : State} :
    Invariant s ↔ DataOk s ∧ ErrInfoOk s.cause s.errInfo s.lastOp ∧ EngineOk s := by
  constructor
  · rintro ⟨hwf, hwl, hlog, herr, hdout, heng⟩
    exact ⟨⟨hwf, hwl, hlog, hdout⟩, herr, heng⟩
  · rintro ⟨⟨hwf, hwl, hlog, hdout⟩, herr, heng⟩
    exact ⟨hwf, hwl, hlog, herr, hdout, heng⟩

section
variable {s : State} {cw : Word} {snap : OperandRegs} {ext : ExtSource}

theorem engineOk_idle (hs : s.engine = .idle) : EngineOk s := by
  unfold EngineOk; rw [hs]; trivial

theorem engineOk_start (hs : s.engine = .busy cw snap ext .start) :
    EngineOk s ↔ snap.wl.length = s.params.wlDepth := by
  unfold EngineOk; rw [hs]

theorem engineOk_seqWrite {i : Nat} {half : Half} (hs : s.engine = .busy cw snap ext (.seqWrite i half)) :
    EngineOk s ↔ snap.wl.length = s.params.wlDepth ∧ TxOk s.params cw snap i := by
  unfold EngineOk; rw [hs]

theorem engineOk_seqSettle {i : Nat} (hs : s.engine = .busy cw snap ext (.seqSettle i)) :
    EngineOk s ↔ snap.wl.length = s.params.wlDepth ∧ TxOk s.params cw snap i := by
  unfold EngineOk; rw [hs]

theorem engineOk_streamEmit {x y : Nat} (hs : s.engine = .busy cw snap ext (.streamEmit x y)) :
    EngineOk s ↔ snap.wl.length = s.params.wlDepth ∧ decode cw = .ok .stream ∧ StreamOk s.params snap ext ∧
      StreamAt s snap x y := by
  unfold EngineOk; rw [hs]

/-- The two phases after a byte write keep the transaction's index. -/
theorem engineOk_afterWrite {i : Nat} {half : Half} (hs : s.engine = .busy cw snap ext (afterWrite i half)) :
    EngineOk s ↔ snap.wl.length = s.params.wlDepth ∧ TxOk s.params cw snap i := by
  cases half with
  | lo => exact engineOk_seqWrite hs
  | hi => exact engineOk_seqSettle hs

end

/-! ### The fields that emitting a pixel writes and leaves (R128) -/

section
variable (v : Raw16) (next : Nat × Nat) (s : State)

@[simp] theorem emitPixel_params : (emitPixel v next s).params = s.params := rfl
@[simp] theorem emitPixel_regs : (emitPixel v next s).regs = s.regs := rfl
@[simp] theorem emitPixel_cause : (emitPixel v next s).cause = s.cause := rfl
@[simp] theorem emitPixel_lastOp : (emitPixel v next s).lastOp = s.lastOp := rfl
@[simp] theorem emitPixel_errInfo : (emitPixel v next s).errInfo = s.errInfo := rfl
@[simp] theorem emitPixel_dout : (emitPixel v next s).dout = s.dout := rfl
@[simp] theorem emitPixel_posX : (emitPixel v next s).posX = BitVec.ofNat 16 next.1 := rfl
@[simp] theorem emitPixel_posY : (emitPixel v next s).posY = BitVec.ofNat 16 next.2 := rfl
@[simp] theorem emitPixel_pixCount : (emitPixel v next s).pixCount = s.pixCount + 1 := rfl
@[simp] theorem emitPixel_log : (emitPixel v next s).log = s.log := rfl

end

/-! ### The data registers -/

theorem doutOk_pack (st : BitVec 2) {ch : BitVec 2} (h : ch ≠ 3) (v : Sample10) :
    DoutOk ⟨st, ch, v, packMsb v, packLsb v⟩ :=
  ⟨packLsb_toNat v, packMsb_toNat v, h⟩

theorem length_writeAndLog_log_le (dev : BitVec 7) (reg : RegAddr) (byte : Byte) {s : State}
    (h : s.log.length ≤ s.params.logDepth) : (writeAndLog dev reg byte s).log.length ≤ s.params.logDepth := by
  obtain ⟨hroom, hlog, -⟩ | ⟨-, hlog, -⟩ := writeAndLog_log dev reg byte s <;> rw [hlog]
  · rw [List.length_append, List.length_singleton]; omega
  · exact h

theorem dataOk_writeAndLog (dev : BitVec 7) (reg : RegAddr) (byte : Byte) {s : State} (h : DataOk s) :
    DataOk (writeAndLog dev reg byte s) := by
  obtain ⟨hwf, hwl, hlog, hdout⟩ := h
  simpa [DataOk, hwf, hwl, hdout] using length_writeAndLog_log_le dev reg byte hlog

/-- An engine turn keeps the data registers: only a byte write, LOG_CLEAR and a codec or router command touch what they say. -/
theorem Move.dataOk {s t : State} {cw : Word} {snap : OperandRegs} {ext : ExtSource} {ph : Phase}
    (m : Move s cw snap ext ph t) (h : DataOk s) : DataOk t := by
  have ⟨hwf, hwl, hlog, hdout⟩ := h
  cases m with
  | dout st ch v hch _ => exact ⟨hwf, hwl, hlog, doutOk_pack st hch v⟩
  | logClear _ => exact ⟨hwf, hwl, Nat.zero_le _, hdout⟩
  | writeOk _ e i half => exact dataOk_writeAndLog snap.devAddr (txReg e half) (txByte e half) h
  | writeFail _ e i half => exact dataOk_writeAndLog snap.devAddr (txReg e half) (txByte e half) h
  | emitLast | emitNext => simpa [DataOk] using h
  | _ => exact h

/-! ### The completion record -/

/-- R41, R147: FAIL(t) has t in 1..15. -/
theorem transportCode_fail_ne_zero (k : Fin 15) : transportCode (.fail k) ≠ 0 := by
  revert k; decide

/-- An engine turn leaves the record as it was or writes one that R183 allows. -/
theorem Move.errInfoOk {s t : State} {cw : Word} {snap : OperandRegs} {ext : ExtSource} {ph : Phase}
    (m : Move s cw snap ext ph t) (h : ErrInfoOk s.cause s.errInfo s.lastOp) :
    ErrInfoOk t.cause t.errInfo t.lastOp := by
  cases m with
  | quiet c e _ he => exact he
  | logClear | dout | streamEmpty | emitLast | settleLast => exact rfl
  | writeFail _ _ _ _ k => exact transportCode_fail_ne_zero k
  | writeOk | emitNext => simpa using h
  | streamEnter | txEnter | settleNext => exact h

/-! ### A transaction's index -/

theorem txOk_of_txList {p : Params} {cw : Word} {snap : OperandRegs} {i j : Nat} {entries : List TxEntry}
    (h : TxOk p cw snap i) (hl : txList cw snap = some entries) (hj : j < entries.length) : TxOk p cw snap j := by
  obtain ⟨entries', hl', -, hlen, hgood⟩ := h
  obtain rfl : entries = entries' := Option.some.inj (hl.symm.trans hl')
  exact ⟨entries, hl, hj, hlen, hgood⟩

theorem five_le_wlDepth {p : Params} (hwf : p.wf = true) : 5 ≤ p.wlDepth := by
  simp only [Params.wf, Bool.and_eq_true, decide_eq_true_eq] at hwf
  omega

/-- R153, R155: a transaction's list has at most WL_DEPTH entries: WL_LEN is checked, and the register map has five. -/
theorem length_le_of_txList {p : Params} {cw : Word} {snap : OperandRegs} {entries : List TxEntry} (hwf : p.wf = true)
    (hl : txList cw snap = some entries) (hn : decode cw = .ok .seqList → snap.wlLen.toNat ≤ p.wlDepth) :
    entries.length ≤ p.wlDepth := by
  unfold txList at hl
  split at hl
  · rename_i hd
    cases hl
    exact (List.length_take_le _ _).trans (hn hd)
  · cases hl
    simpa [seqTpEntries, Config.registerMap] using five_le_wlDepth hwf
  · cases hl

/-! ### A stream's position -/

theorem nextPixel_fst_lt {w x : Nat} (y : Nat) (hx : x < w) : (nextPixel w x y).1 < w := by
  unfold nextPixel; split <;> dsimp only <;> omega

theorem nextPixel_snd_eq (w x y : Nat) : (nextPixel w x y).2 = y ∨ (nextPixel w x y).2 = y + 1 := by
  unfold nextPixel; split <;> simp

/-- R128: in row-major order the next pixel's index is one more. -/
theorem nextPixel_index {w x y y0 : Nat} (hx : x < w) (hy : y0 ≤ y) :
    w * ((nextPixel w x y).2 - y0) + (nextPixel w x y).1 = w * (y - y0) + x + 1 := by
  unfold nextPixel
  split
  · rfl
  · dsimp only
    rw [Nat.sub_add_comm hy, Nat.mul_add_one]
    omega

/-- A pixel's index in a frame of 16-bit dimensions fits PIX_COUNT. -/
theorem pixelIndex_lt {w x k : Nat} (hw : w < 2 ^ 16) (hx : x < w) (hk : k + 1 < 2 ^ 16) : w * k + x + 1 < 2 ^ 32 := by
  have hrow : w * k + w ≤ (2 ^ 16 - 1) * (2 ^ 16 - 1) := by
    rw [← Nat.mul_add_one]
    exact Nat.mul_le_mul (by omega) (by omega)
  omega

theorem streamOk_of_valid {p : Params} {snap : OperandRegs} {ext : ExtSource} (hd : streamDimBad p.maxDim snap = false)
    (hv : streamValueBad snap ext = false) : StreamOk p snap ext := by
  have hd' := (streamDimBad_iff p.maxDim snap).not.1 (by simp [hd])
  exact ⟨by omega, by omega, by omega, fun x y hx h0 h1 => pixval_le_of_valid (by simp [hv]) hx h0 h1⟩

/-- R127: the Start step puts a stream at the first pixel of its range. -/
theorem streamAt_first (s : State) {snap : OperandRegs} (hw : snap.frameW ≠ 0#16)
    (hlt : snap.rowY0.toNat < snap.rowY1.toNat) :
    StreamAt { setPos 0 snap.rowY0.toNat s with pixCount := 0 } snap 0 snap.rowY0.toNat := by
  have hw' : snap.frameW.toNat ≠ 0 := fun h => hw (BitVec.eq_of_toNat_eq h)
  exact ⟨by omega, le_rfl, hlt, rfl, by simp, by simp⟩

/-- A change of phase leaves the position registers. -/
theorem streamAt_goTo {cw : Word} {snap' : OperandRegs} {ext : ExtSource} {ph : Phase} {s : State} {snap : OperandRegs}
    {x y : Nat} : StreamAt (goTo cw snap' ext ph s) snap x y ↔ StreamAt s snap x y := Iff.rfl

/-- R128: a step that does not leave the range moves the stream, POS and PIX_COUNT to the next pixel. -/
theorem streamAt_emitPixel (v : Raw16) {s : State} {snap : OperandRegs} {x y : Nat} (h : StreamAt s snap x y)
    (hne : (nextPixel snap.frameW.toNat x y).2 ≠ snap.rowY1.toNat) :
    StreamAt (emitPixel v (nextPixel snap.frameW.toNat x y) s) snap (nextPixel snap.frameW.toNat x y).1
      (nextPixel snap.frameW.toNat x y).2 := by
  obtain ⟨hx, h0, h1, -, -, hcount⟩ := h
  have hfst := nextPixel_fst_lt y hx
  have hsnd := nextPixel_snd_eq snap.frameW.toNat x y
  have hW := snap.frameW.isLt
  have hY := snap.rowY1.isLt
  have hfit := pixelIndex_lt (k := y - snap.rowY0.toNat) hW hx (by omega)
  refine ⟨hfst, by omega, by omega, ?_, ?_, ?_⟩
  · rw [emitPixel_posX, BitVec.toNat_ofNat, Nat.mod_eq_of_lt (by omega)]
  · rw [emitPixel_posY, BitVec.toNat_ofNat, Nat.mod_eq_of_lt (by omega)]
  · rw [emitPixel_pixCount, nextPixel_index hx h0, BitVec.toNat_add, hcount]
    exact Nat.mod_eq_of_lt hfit

/-! ### The engine -/

/-- An engine turn ends the command or enters a phase of it whose conditions hold. -/
theorem Move.engineOk {s t : State} {cw : Word} {snap : OperandRegs} {ext : ExtSource} {ph : Phase}
    (m : Move s cw snap ext ph t) (hwf : s.params.wf = true) (hs : s.engine = .busy cw snap ext ph) (h : EngineOk s) :
    EngineOk t := by
  cases m with
  | quiet | logClear | dout | streamEmpty | emitLast | writeFail | settleLast => exact engineOk_idle rfl
  | streamEnter hdec hd hv hw hy =>
    have hsnap := (engineOk_start hs).1 h
    have hrows := (streamDimBad_iff s.params.maxDim snap).not.1 (by simp [hd])
    have hne : snap.rowY0.toNat ≠ snap.rowY1.toNat := fun e => hy (BitVec.eq_of_toNat_eq e)
    exact (engineOk_streamEmit rfl).2 ⟨hsnap, hdec, streamOk_of_valid hd hv, streamAt_first s hw (by omega)⟩
  | emitNext x y hdec hne =>
    obtain ⟨hsnap, -, hok, hat⟩ := (engineOk_streamEmit hs).1 h
    rw [engineOk_streamEmit (goTo_engine _ _ _ _ _), goTo_params, emitPixel_params, streamAt_goTo]
    exact ⟨hsnap, hdec, hok, streamAt_emitPixel _ hat hne⟩
  | txEnter entries hl hgood hne hn =>
    have hsnap := (engineOk_start hs).1 h
    exact (engineOk_seqWrite rfl).2
      ⟨hsnap, entries, hl, List.length_pos_iff.2 hne, length_le_of_txList hwf hl hn, hgood⟩
  | writeOk _ e i half =>
    have htx := (engineOk_seqWrite hs).1 h
    exact (engineOk_afterWrite rfl).2 (by simpa using htx)
  | settleNext entries i hl hi =>
    obtain ⟨hsnap, htx⟩ := (engineOk_seqSettle hs).1 h
    exact (engineOk_seqWrite rfl).2 ⟨hsnap, txOk_of_txList htx hl hi⟩

/-! ### One turn of each agent -/

theorem engineTurn_keeps_invariant {s t : State} (h : Invariant s) (ht : engineTurn s = .next t) : Invariant t := by
  obtain ⟨-, rfl⟩ | ⟨cw, snap, ext, ph, hs, m⟩ := engineTurn_kind ht
  · exact h
  · obtain ⟨hdata, herr, heng⟩ := invariant_iff.1 h
    exact invariant_iff.2 ⟨m.dataOk hdata, m.errInfoOk herr, m.engineOk hdata.1 hs heng⟩

/-- The invariant reads nothing the host or the source may set but the length of the write list. -/
theorem invariant_of_hostFields {s : State} (h : Invariant s) (rest : List Turn) {r : OperandRegs} (sel : BitVec 16)
    (b : Bool) (reads : List Word) (table : List ExtSample) (hr : r.wl.length = s.regs.wl.length) :
    Invariant { s with script := rest, regs := r, logSel := sel, rej := b, hostReads := reads, extTable := table } := by
  obtain ⟨hwf, hwl, hlog, herr, hdout, heng⟩ := h
  exact ⟨hwf, hr.trans hwl, hlog, herr, hdout, heng⟩

theorem invariant_script {s : State} (h : Invariant s) (rest : List Turn) : Invariant { s with script := rest } :=
  invariant_of_hostFields h rest s.logSel s.rej s.hostReads s.extTable rfl

/-- R48: acceptance snapshots a write list of WL_DEPTH entries. -/
theorem accept_keeps_invariant {s : State} (h : Invariant s) (cw : Word) : Invariant (accept cw s) := by
  obtain ⟨hwf, hwl, hlog, herr, hdout, -⟩ := h
  exact ⟨hwf, hwl, hlog, herr, hdout, (engineOk_start rfl).2 hwl⟩

/-- R211: reset establishes the invariant from any state whose parameters are valid. -/
theorem invariant_resetBlock {s : State} (hwf : s.params.wf = true) : Invariant (resetBlock s) :=
  ⟨hwf, List.length_replicate, Nat.zero_le _, rfl, doutOk_pack 0 (by decide) 0, engineOk_idle rfl⟩

end Sys2Proof.Machine

namespace Sys2Proof.Claims

open Sys2Proof Sys2Proof.Machine

/-- Settles O46: the state after reset is what the reset step makes of it, with the spec's parameters. -/
theorem invariantAtReset : Obligations.InvariantAtReset :=
  invariant_resetBlock (s := State.reset) (by decide)

/-- Settles O47, by cases on the kinds of step: an engine turn makes a move, and the other agents' turns write host fields,
accept a word or reset. -/
theorem stepKeepsTheInvariant : Obligations.StepKeepsTheInvariant := by
  intro s t h hst
  cases step_kind hst with
  | engine rest _ _ ht => exact engineTurn_keeps_invariant (invariant_script h rest) ht
  | quiet rest r sel b reads table hr _ => exact invariant_of_hostFields h rest sel b reads table hr
  | accepted rest v _ _ => exact accept_keeps_invariant (invariant_script h rest) v
  | reset rest _ =>
    obtain ⟨hwf, -⟩ := h
    exact invariant_resetBlock hwf

end Sys2Proof.Claims
end

section
/-! # The CSR window: what a host read returns and what a host write does (R20 to R44)

Offsets are turned into registers once (`memRead_of_csrAt`, `memWrite_of_csrAt`, `step_hostWrite`); after that a statement about
the window is one about `readCsr` and `writeCsr`, register by register. -/

namespace Sys2Proof.Machine

/-! ### From offsets to registers -/

theorem wlDepth_le_32 {p : Params} (hwf : p.wf = true) : p.wlDepth ≤ 32 := by
  simp only [Params.wf, Bool.and_eq_true, decide_eq_true_eq] at hwf
  omega

theorem memRead_of_csrAt {s : State} {off : Nat} {c : Csr} (h : csrAt s.params.wlDepth off = some c) :
    memRead s off = readCsr s c := by
  unfold memRead; rw [h]

theorem memRead_of_reserved {s : State} {off : Nat} (h : csrAt s.params.wlDepth off = none) : memRead s off = 0 := by
  unfold memRead; rw [h]

theorem memWrite_of_csrAt {s : State} {off : Nat} {c : Csr} (h : csrAt s.params.wlDepth off = some c) (v : Word) :
    memWrite s off v = writeCsr s v c := by
  unfold memWrite; rw [h]

theorem memWrite_of_reserved {s : State} {off : Nat} (h : csrAt s.params.wlDepth off = none) (v : Word) :
    memWrite s off v = s := by
  unfold memWrite; rw [h]

theorem csrAt_wl {d i : Nat} (h : i < d) : csrAt d (0x080 + 4 * i) = some (.wl i) := by
  rw [csrAt_above d _ (by omega), Nat.add_sub_cancel_left, Nat.mul_div_cancel_left i (by decide), if_pos ⟨by omega, h⟩]

/-- R20: the reserved offsets are those between PARAM and WL and those from WL_DEPTH entries up. -/
theorem csrAt_reserved {d off : Nat} (h : (0x054 ≤ off ∧ off < 0x080) ∨ 0x080 + 4 * d ≤ off) : csrAt d off = none := by
  rw [csrAt_above d off (by omega), if_neg (by omega)]

/-- R20: the entry a WL register names is below WL_DEPTH. -/
theorem csrAt_wl_lt {d off i : Nat} (h : csrAt d off = some (.wl i)) : i < d := by
  unfold csrAt at h
  split at h <;> try cases h
  split at h <;> cases h
  next hd => exact hd.2

/-- R7, R20: with valid parameters every register stands in the 256-byte window. -/
theorem csrAt_lt {p : Params} {off : Nat} {c : Csr} (hwf : p.wf = true) (h : csrAt p.wlDepth off = some c)
    (ha : off % 4 = 0) : off < 0x100 := by
  rw [csrAt_offset h ha]
  cases c
  case wl i =>
    have hi := csrAt_wl_lt h
    have hd := wlDepth_le_32 hwf
    simp only [Csr.offset]
    omega
  all_goals decide

/-- R64: an admitted host write as a step. -/
theorem step_hostWrite {s : State} {off : Nat} {v : Word} {rest : List Turn} (hs : s.script = .write 4 off v :: rest)
    (ha : off % 4 = 0) (hlt : off < 0x100) : step s = .next (memWrite { s with script := rest } off v) := by
  have hadm : admitted 4 off = true := by simp [admitted, ha, hlt]
  rw [step_cons hs, takeTurn, hostWrite, if_pos hadm]

/-! ### Fields of a written word, as numbers -/

/-- The field of a word from bit `lo` up. -/
theorem extractLsb'_eq_ofNat_div (v : Word) (lo n : Nat) : v.extractLsb' lo n = BitVec.ofNat n (v.toNat / 2 ^ lo) := by
  apply BitVec.eq_of_toNat_eq
  rw [extractLsb'_toNat_div, BitVec.toNat_ofNat]

/-- A field below zero bits reads as itself. -/
theorem zero_append_toNat {n m : Nat} (a : BitVec m) : (0#n ++ a).toNat = a.toNat := by
  rw [append_toNat_mul, BitVec.toNat_ofNat, Nat.zero_mod, Nat.zero_mul, Nat.zero_add]

/-! ### The STATUS bits read off the engine (R47) -/

theorem isBusy_iff (e : Engine) : e.isBusy = true ↔ e ≠ .idle := by
  cases e <;> simp [Engine.isBusy]

theorem ownsBus_iff (e : Engine) : e.ownsBus = true ↔
    ∃ cw snap ext i, (∃ h, e = .busy cw snap ext (.seqWrite i h)) ∨ e = .busy cw snap ext (.seqSettle i) := by
  cases e with
  | idle => simp [Engine.ownsBus]
  | busy cw snap ext ph => cases ph <;> simp [Engine.ownsBus]

theorem isStreaming_iff (e : Engine) : e.isStreaming = true ↔ ∃ cw snap ext x y, e = .busy cw snap ext (.streamEmit x y) := by
  cases e with
  | idle => simp [Engine.isStreaming]
  | busy cw snap ext ph => cases ph <;> simp [Engine.isStreaming]

/-- A status bit as a number, with what it says. -/
theorem toNat_flag {b : Bool} {P : Prop} (h : b = true ↔ P) : b.toNat = 1 ∧ P ∨ b.toNat = 0 ∧ ¬ P := by
  cases b
  · exact .inr ⟨rfl, fun hp => Bool.false_ne_true (h.2 hp)⟩
  · exact .inl ⟨rfl, h.1 rfl⟩

/-- R24: the STATUS word as a number. -/
theorem statusWord_toNat (s : State) : (statusWord s).toNat =
    s.engine.isBusy.toNat + 2 * s.engine.ownsBus.toNat + 4 * s.engine.isStreaming.toNat + 8 * s.rej.toNat +
      16 * s.logOvf.toNat + 2 ^ 8 * s.cause.code.toNat + 2 ^ 16 * s.lastOp.toNat + 2 ^ 24 * s.doneCnt.toNat := by
  simp only [statusWord, append_toNat_mul, BitVec.toNat_ofBool, BitVec.toNat_ofNat]
  omega

/-! ### Other words, as numbers -/

/-- R41, R147: the transport code of FAIL(t) is t. -/
theorem transportCode_fail_toNat (k : Fin 15) : (transportCode (.fail k)).toNat = k.val + 1 := by
  rw [transportCode, BitVec.toNat_ofNat, Nat.mod_eq_of_lt (by omega)]

/-- R41: the word of a log entry as a number. -/
theorem logEntryWord_toNat (e : LogEntry) : (logEntryWord e).toNat = e.addr.toNat + 2 ^ 16 * e.value.toNat +
    (2 ^ 24 * (failBit e.outcome).toNat + 2 ^ 28 * (transportCode e.outcome).toNat) := by
  simp only [logEntryWord, append_toNat_mul, BitVec.toNat_ofBool, BitVec.toNat_ofNat]
  omega

theorem logEntryRead_of_selected {s : State} {e : LogEntry} (h : s.log[s.logSel.toNat]? = some e) :
    logEntryRead s = logEntryWord e := by
  unfold logEntryRead; rw [h]

theorem logEntryRead_of_beyond {s : State} (h : s.log.length ≤ s.logSel.toNat) : logEntryRead s = 0 := by
  unfold logEntryRead; rw [List.getElem?_eq_none h]

/-- R44: a read of a WL entry that exists. -/
theorem readCsr_wl {s : State} {i : Nat} {e : TxEntry} (h : s.regs.wl[i]? = some e) : readCsr s (.wl i) = e.value ++ e.addr := by
  simp only [readCsr, h]

/-! ### Writes, register by register -/

/-- R25: a STATUS write may clear REJ. -/
theorem writeCsr_status (s : State) (v : Word) :
    writeCsr s v .status = { s with rej := if v.toNat / 8 % 2 = 1 then false else s.rej } := by
  have hbit : v.extractLsb' 3 1 = 1#1 ↔ v.toNat / 8 % 2 = 1 := field_eq_iff v 3 1 1#1
  simp only [writeCsr, hbit]
  split <;> rfl

theorem writeCsr_params (s : State) (v : Word) (c : Csr) : (writeCsr s v c).params = s.params := by
  obtain ⟨-, h⟩ | ⟨r, sel, b, h, -⟩ := writeCsr_cases s v c <;> rw [h]
  unfold issue
  split <;> rfl

theorem memWrite_params (s : State) (off : Nat) (v : Word) : (memWrite s off v).params = s.params := by
  unfold memWrite
  split
  · exact writeCsr_params s v _
  · rfl

/-- R20, R21: a write to one register other than CMD leaves what every other register shows, but that LOG_SEL selects what
LOG_ENTRY shows. -/
theorem readCsr_writeCsr_of_ne (s : State) (v : Word) {c c' : Csr} (hne : c' ≠ c) (hcmd : c ≠ .cmd)
    (hlog : ¬ (c = .logSel ∧ c' = .logEntry)) : readCsr (writeCsr s v c) c' = readCsr s c' := by
  cases c
  case cmd => exact absurd rfl hcmd
  case status =>
    rw [writeCsr_status]
    cases c'
    case status => exact absurd rfl hne
    all_goals rfl
  case logSel =>
    cases c'
    case logSel => exact absurd rfl hne
    case logEntry => exact absurd ⟨rfl, rfl⟩ hlog
    all_goals rfl
  case wl i =>
    cases c'
    case wl j =>
      have hij : i ≠ j := fun e => hne (by rw [e])
      simp only [readCsr, writeCsr, List.getElem?_set_ne hij]
    all_goals rfl
  all_goals
    cases c' <;> try contradiction
    all_goals rfl

/-- R20: how many low bits of a written word a RW register stores. -/
def Csr.storedBits : Csr → Option Nat
  | .ctrl => some 1
  | .chR | .chG | .chB | .tpeValue | .settleMs | .logSel => some 16
  | .devAddr => some 7
  | .wlLen => some 8
  | .frameDim | .rowRange | .wl _ => some 32
  | _ => none

/-- R20: a read of a RW register gives back the bits a write stored. -/
theorem readCsr_writeCsr_same (s : State) (v : Word) {c : Csr} {n : Nat} (hn : c.storedBits = some n)
    (hwl : ∀ i, c = .wl i → i < s.regs.wl.length) : (readCsr (writeCsr s v c) c).toNat = v.toNat % 2 ^ n := by
  have hv := v.isLt
  cases c <;> cases hn
  case wl i =>
    have hset : (s.regs.wl.set i ⟨v.extractLsb' 0 16, v.extractLsb' 16 16⟩)[i]? =
        some ⟨v.extractLsb' 0 16, v.extractLsb' 16 16⟩ :=
      List.getElem?_set_self (hwl i rfl)
    rw [writeCsr, readCsr_wl hset]
    simp only [append_toNat_mul, extractLsb'_toNat_div]
    omega
  all_goals
    simp only [readCsr, writeCsr, append_toNat_mul, extractLsb'_toNat_div, BitVec.toNat_ofNat]
    omega

/-- R188: an Idle engine accepts a CMD write. -/
theorem issue_idle {s : State} (h : s.engine = .idle) (cw : Word) : issue cw s = accept cw s := by
  rw [issue, h]; rfl

end Sys2Proof.Machine

namespace Sys2Proof.Claims

open Sys2Proof Sys2Proof.Machine

/-- The RW registers of the model are those `rwBits` lists, with the same widths. -/
theorem csrAt_of_rwBits {d off n : Nat} (h : rwBits d off = some n) :
    off % 4 = 0 ∧ ∃ c, csrAt d off = some c ∧ c.storedBits = some n := by
  unfold rwBits at h
  split at h
  next ho => cases ho; cases h; exact ⟨rfl, _, rfl, rfl⟩
  split at h
  next ho =>
    cases h
    simp only [List.mem_cons, List.not_mem_nil, or_false] at ho
    obtain rfl | rfl | rfl | rfl | rfl | rfl := ho <;> exact ⟨rfl, _, rfl, rfl⟩
  split at h
  next ho =>
    cases h
    simp only [List.mem_cons, List.not_mem_nil, or_false] at ho
    obtain rfl | rfl := ho <;> exact ⟨rfl, _, rfl, rfl⟩
  split at h
  next ho => cases ho; cases h; exact ⟨rfl, _, rfl, rfl⟩
  split at h
  next ho => cases ho; cases h; exact ⟨rfl, _, rfl, rfl⟩
  split at h
  next ho =>
    cases h
    obtain ⟨i, rfl⟩ : ∃ i, off = 0x080 + 4 * i := ⟨(off - 0x080) / 4, by omega⟩
    exact ⟨ho.1, _, csrAt_wl (by omega), rfl⟩
  next => cases h

/-- `stored` is what the model's write does to a RW register. -/
theorem writeCsr_eq_stored (s : State) (v : Word) {c : Csr} {n : Nat} (hn : c.storedBits = some n) :
    writeCsr s v c = stored s c.offset v := by
  cases c <;> cases hn
  case wl i =>
    have hoff : ∀ k, k < 0x080 → Csr.offset (.wl i) ≠ k := by intro k hk; simp only [Csr.offset]; omega
    have hidx : (Csr.offset (.wl i) - 0x080) / 4 = i := by simp only [Csr.offset]; omega
    simp [stored, writeCsr, hoff, hidx, extractLsb'_eq_ofNat_div]
  all_goals simp [stored, writeCsr, Csr.offset, extractLsb'_eq_ofNat_div]

/-- The test of the model's search for a listed answer. -/
theorem answers_iff (a : ExtSample) (x y : BitVec 16) (c : Channel) :
    decide (a.x = BitVec.ofNat 16 x.toNat ∧ a.y = BitVec.ofNat 16 y.toNat ∧ a.ch = c) = true ↔ answers a x y c := by
  simp [answers]

/-- R125: the first listed answer to a request is the source's. -/
theorem extSrc_of_listed {before after : List ExtSample} {a : ExtSample} {n : Nat} {x y : BitVec 16} {c : Channel}
    (ha : answers a x y c) (hb : ∀ b ∈ before, ¬ answers b x y c) :
    extSrc ⟨before ++ a :: after, n⟩ x.toNat y.toNat c = a.value := by
  have hnone := List.find?_eq_none.2 fun b hm => (answers_iff b x y c).not.2 (hb b hm)
  rw [extSrc, List.find?_append, hnone, Option.none_or, List.find?_cons_of_pos (a := a) ((answers_iff a x y c).2 ha)]

/-- R125: to a request not listed the source answers the free value of its number. -/
theorem extSrc_of_unlisted {table : List ExtSample} {n : Nat} {x y : BitVec 16} {c : Channel}
    (h : ∀ b ∈ table, ¬ answers b x y c) :
    extSrc ⟨table, n⟩ x.toNat y.toNat c = Config.freePixel n x y c.code := by
  have hnone := List.find?_eq_none.2 fun b hm => (answers_iff b x y c).not.2 (h b hm)
  rw [extSrc, hnone, BitVec.ofNat_toNat, BitVec.ofNat_toNat, BitVec.setWidth_eq, BitVec.setWidth_eq]

end Sys2Proof.Claims
end

section
/-! # The obligations about the host's side of the window -/

namespace Sys2Proof.Claims

open Sys2Proof Sys2Proof.Machine

/-- Settles O35: each field of the word is a flag or a code, and `statusWord_toNat` sums them. -/
theorem statusWordFields : Obligations.StatusWordFields := by
  intro s
  refine ⟨s.engine.isBusy.toNat, s.engine.ownsBus.toNat, s.engine.isStreaming.toNat, s.cause.code.toNat,
    ?_, toNat_flag (ownsBus_iff _), toNat_flag (isStreaming_iff _), ?_, ?_⟩
  · simpa only [ne_eq, not_not] using toNat_flag (isBusy_iff s.engine)
  · cases s.cause <;> decide
  · rw [memRead_of_csrAt rfl, readCsr, statusWord_toNat]

/-- Settles O36, register by register: the offset names the register, and its word is the sum of its fields. -/
theorem readsReturnTheNamedFields : Obligations.ReadsReturnTheNamedFields := by
  intro s
  refine ⟨rfl, zero_append_toNat _, rfl, ?errinfo, ?dout, zero_append_toNat _, zero_append_toNat _, zero_append_toNat _,
    zero_append_toNat _, ?frameDim, ?rowRange, ?pos, rfl, zero_append_toNat _, zero_append_toNat _, zero_append_toNat _,
    ?logCount, zero_append_toNat _, ?param, ?wl, ?reserved⟩
  case wl =>
    intro i e hi he
    rw [memRead_of_csrAt (csrAt_wl hi), readCsr_wl he, append_toNat_mul]
    omega
  case reserved => exact fun off _ h => memRead_of_reserved (csrAt_reserved h)
  case logCount => rw [memRead_of_csrAt rfl, readCsr, zero_append_toNat, logCount, BitVec.toNat_ofNat]
  all_goals
    rw [memRead_of_csrAt rfl]
    simp only [readCsr, errInfoWord, doutWord, paramWord, append_toNat_mul, BitVec.toNat_ofNat]
    omega

/-- Settles O37: LOG_ENTRY is the word of the selected entry, or 0 where there is none. -/
theorem logEntryShowsTheSelectedEntry : Obligations.LogEntryShowsTheSelectedEntry := by
  intro s
  have hread : memRead s 0x04C = logEntryRead s := rfl
  refine ⟨fun e he => ?_, fun h => ?_⟩
  · rw [hread, logEntryRead_of_selected he, logEntryWord_toNat]
    cases e.outcome with
    | ok => rfl
    | fail k => rw [transportCode_fail_toNat]; rfl
  · rw [hread, logEntryRead_of_beyond h]

/-- Settles O34. -/
theorem statusWriteOnlyClearsRej : Obligations.StatusWriteOnlyClearsRej := by
  intro s v rest hs
  rw [step_hostWrite hs rfl (by decide), memWrite_of_csrAt rfl, writeCsr_status]

/-- Settles O40: the offset names a RW register, where the model's write is `stored` and a read gives the stored bits. -/
theorem writtenRegistersReadBack : Obligations.WrittenRegistersReadBack := by
  intro s off n v rest hwl hwf hn hs
  obtain ⟨ha, c, hc, hbits⟩ := csrAt_of_rwBits hn
  have hoff := csrAt_offset hc ha
  have hlen : ∀ i, c = .wl i → i < s.params.wlDepth := fun i hi => csrAt_wl_lt (hi ▸ hc)
  have hlt : off < 0x100 := csrAt_lt hwf hc ha
  have hc' : csrAt { s with script := rest }.params.wlDepth off = some c := hc
  have hw : memWrite { s with script := rest } off v = stored { s with script := rest } off v := by
    rw [memWrite_of_csrAt hc', hoff, writeCsr_eq_stored _ _ hbits]
  refine ⟨_, rfl, by rw [step_hostWrite hs ha hlt, hw], ?_⟩
  rw [← hw, memRead_of_csrAt (c := c) (by rw [memWrite_params]; exact hc), memWrite_of_csrAt hc',
    readCsr_writeCsr_same _ v hbits (fun i hi => hwl ▸ hlen i hi)]

/-- Settles O41: two offsets name two registers, and a write to the one leaves what the other shows. -/
theorem writesLeaveOtherRegisters : Obligations.WritesLeaveOtherRegisters := by
  intro s off off' v ha ha' hne hcmd hlog
  cases hc : csrAt s.params.wlDepth off with
  | none => rw [memWrite_of_reserved hc]
  | some c =>
    cases hc' : csrAt s.params.wlDepth off' with
    | none => rw [memRead_of_reserved hc', memRead_of_reserved (by rw [memWrite_params]; exact hc')]
    | some c' =>
      have ho := csrAt_offset hc ha
      have ho' := csrAt_offset hc' ha'
      rw [memRead_of_csrAt hc', memRead_of_csrAt (c := c') (by rw [memWrite_params]; exact hc'), memWrite_of_csrAt hc]
      refine readCsr_writeCsr_of_ne s v ?_ ?_ ?_
      · rintro rfl; exact hne (ho'.trans ho.symm)
      · rintro rfl; exact hcmd ho
      · rintro ⟨rfl, rfl⟩; exact hlog ⟨ho, ho'⟩

/-- Settles O42: a RO register's write is the identity, and a reserved offset names no register. -/
theorem readOnlyWritesHaveNoEffect : Obligations.ReadOnlyWritesHaveNoEffect := by
  intro s off v rest ha hlt hign hs
  rw [step_hostWrite hs ha hlt]
  obtain hro | hres := hign
  · simp only [List.mem_cons, List.not_mem_nil, or_false] at hro
    obtain rfl | rfl | rfl | rfl | rfl | rfl | rfl | rfl := hro <;> rfl
  · rw [memWrite_of_reserved (s := { s with script := rest }) (csrAt_reserved hres)]

/-- Settles O44, by computing the window of the one state after reset. -/
theorem resetValuesOfTheRegisters : Obligations.ResetValuesOfTheRegisters :=
  ⟨by decide, by decide, rfl, rfl⟩

/-- Settles O32: acceptance copies the source, and `extSrc` searches its list in order. -/
theorem sourceIsTakenAtAcceptance : Obligations.SourceIsTakenAtAcceptance := by
  intro s
  refine ⟨fun v rest hs hidle => ?_, fun table rest hs => step_cons hs, ?_, ?_⟩
  · refine ⟨_, ?_, accept_engine v { s with script := rest }, rfl⟩
    rw [step_hostWrite hs rfl (by decide), memWrite_of_csrAt rfl, writeCsr, issue_idle (s := { s with script := rest }) hidle]
  · intro before after a n x y c ha hbefore
    exact extSrc_of_listed ha hbefore
  · intro table n x y c hnone
    rw [extSrc_of_unlisted hnone]
    cases c <;> rfl

/-- Settles O8. -/
theorem stepRunsTheDecodedCommand : Obligations.StepRunsTheDecodedCommand := by
  intro s cw snap ext ph i he hi
  refine ⟨fun hs => ?_, fun rest hs => ?_⟩
  · rw [step_nil hs, engineTurn_busy he hi]
  · rw [step_engineNext (.inr hs), engineTurn_busy (s := { s with script := rest }) he hi]

end Sys2Proof.Claims
end

section
/-! # What one step can change: the frames of the block's state

`Move` lists what a Busy engine's turn can do. Each field of the state has one lemma over it here, which says which moves write
the field; `StepEffect` then says of a whole step that it is a move, a reset, or leaves every field of the block. -/

namespace Sys2Proof.Machine

/-! ### The command words of format N -/

/-- R81: a word that decodes in format N has only its low byte. -/
theorem lt_256_of_decodeN {cw : Word} {i j : Instr} (h : decodeN cw i = .ok j) : cw.toNat < 256 := by
  unfold decodeN at h
  split at h <;> cases h
  next hz =>
    have hcw := cw.isLt
    rw [field_eq_iff, BitVec.toNat_ofNat] at hz
    omega

/-- R81, R83: an opcode of format N is decoded as that format. -/
theorem decode_of_opcode_formatN {cw : Word} {i : Instr} (hN : i ∈ [Instr.nop, .logClear, .stream, .seqList, .seqTp])
    (hop : opcodeOf cw = i.opcode) : decode cw = decodeN cw i := by
  simp only [List.mem_cons, List.not_mem_nil, or_false] at hN
  obtain rfl | rfl | rfl | rfl | rfl := hN
  all_goals
    rw [decode, hop]
    rfl

/-- R81, R83: the word of a command of format N is its opcode. -/
theorem eq_opcode_of_decode_formatN {cw : Word} {i : Instr} (h : decode cw = .ok i)
    (hN : i ∈ [Instr.nop, .logClear, .stream, .seqList, .seqTp]) : cw = i.opcode.setWidth 32 := by
  have hop := decode_opcode h
  rw [decode_of_opcode_formatN hN ((opcodeOf_eq_iff cw _).2 hop)] at h
  have hlt := lt_256_of_decodeN h
  apply BitVec.eq_of_toNat_eq
  rw [BitVec.toNat_setWidth, ← hop]
  omega

theorem word_of_decode_logClear {cw : Word} (h : decode cw = .ok .logClear) : cw = 0x01 :=
  (eq_opcode_of_decode_formatN h (by decide)).trans (by decide)

theorem word_of_decode_stream {cw : Word} (h : decode cw = .ok .stream) : cw = 0x22 :=
  (eq_opcode_of_decode_formatN h (by decide)).trans (by decide)

/-- R142: a word with a transaction list is SEQ_LIST's or SEQ_TP's. -/
theorem word_of_txList {cw : Word} {snap : OperandRegs} {entries : List TxEntry} (h : txList cw snap = some entries) :
    cw = 0x30 ∨ cw = 0x31 := by
  unfold txList at h
  split at h
  next hd => exact .inl ((eq_opcode_of_decode_formatN hd (by decide)).trans (by decide))
  next hd => exact .inr ((eq_opcode_of_decode_formatN hd (by decide)).trans (by decide))
  next => cases h

/-! ### More fields of an emitted pixel (R128) -/

section
variable (v : Raw16) (next : Nat × Nat) (s : State)

@[simp] theorem emitPixel_logSel : (emitPixel v next s).logSel = s.logSel := rfl
@[simp] theorem emitPixel_rej : (emitPixel v next s).rej = s.rej := rfl
@[simp] theorem emitPixel_doneCnt : (emitPixel v next s).doneCnt = s.doneCnt := rfl
@[simp] theorem emitPixel_busHistory : (emitPixel v next s).busHistory = s.busHistory := rfl
@[simp] theorem emitPixel_pixOut :
    (emitPixel v next s).pixOut = s.pixOut ++ [packLsb (sampleOf v), packMsb (sampleOf v)] :=
  List.append_assoc _ _ _

end

/-! ### The frame of a move, field by field -/

section
variable {s t : State} {cw : Word} {snap : OperandRegs} {ext : ExtSource} {ph : Phase}

/-- R43, R45, R39: no move writes a parameter, an operand CSR, LOG_SEL or REJ. -/
theorem Move.hostFields (m : Move s cw snap ext ph t) :
    t.params = s.params ∧ t.regs = s.regs ∧ t.logSel = s.logSel ∧ t.rej = s.rej := by
  cases m with
  | writeOk | writeFail | emitLast | emitNext => simp
  | _ => exact ⟨rfl, rfl, rfl, rfl⟩

/-- R47, R184: a move ends the command, which counts it and records its opcode, or leaves the completion fields and the engine
with the same command. -/
theorem Move.completion (m : Move s cw snap ext ph t) :
    (t.engine = .idle ∧ t.doneCnt = s.doneCnt + 1 ∧ t.lastOp = opcodeOf cw) ∨
    ((∃ ph', t.engine = .busy cw snap ext ph') ∧
      t.doneCnt = s.doneCnt ∧ t.lastOp = s.lastOp ∧ t.cause = s.cause ∧ t.errInfo = s.errInfo) := by
  cases m with
  | quiet | logClear | dout | streamEmpty | settleLast => exact .inl ⟨rfl, rfl, rfl⟩
  | emitLast | writeFail => exact .inl ⟨rfl, by simp, rfl⟩
  | streamEnter | txEnter | settleNext => exact .inr ⟨⟨_, rfl⟩, rfl, rfl, rfl, rfl⟩
  | emitNext | writeOk => exact .inr ⟨⟨_, rfl⟩, by simp⟩

/-- R146: a move that leaves the bus handle held began with it or entered a transaction. -/
theorem Move.ownsBus (m : Move s cw snap ext ph t) (h : t.engine.ownsBus = true) :
    (Engine.busy cw snap ext ph).ownsBus = true ∨ (ph = .start ∧ (cw = 0x30 ∨ cw = 0x31)) := by
  cases m with
  | txEnter entries hl => exact .inr ⟨rfl, word_of_txList hl⟩
  | writeOk | settleNext => exact .inl rfl
  | quiet | logClear | dout | streamEmpty | streamEnter | emitLast | emitNext | writeFail | settleLast =>
    exact absurd h Bool.false_ne_true

/-- R147, R150: only a SeqWrite step adds a bus record, and it logs that record while there is room; only LOG_CLEAR empties the
log. -/
theorem Move.busHistory_log (m : Move s cw snap ext ph t) :
    (t.busHistory = s.busHistory ∧ t.log = s.log) ∨
    (∃ i half r, ph = .seqWrite i half ∧ t.busHistory = s.busHistory ++ [r] ∧
      (t.log = s.log ∨ s.log.length < s.params.logDepth ∧ t.log = s.log ++ [⟨r.reg, r.byte, r.outcome⟩])) ∨
    (cw = 0x01 ∧ ph = .start ∧ t.engine = .idle ∧ t.busHistory = s.busHistory ∧ t.log = [] ∧ t.logOvf = false) := by
  cases m with
  | logClear hd => exact .inr (.inr ⟨word_of_decode_logClear hd, rfl, rfl, rfl, rfl, rfl⟩)
  | writeOk _ e i half | writeFail _ e i half =>
    refine .inr (.inl ⟨i, half, ⟨snap.devAddr, txReg e half, txByte e half, busOutcome s⟩, rfl, by simp, ?_⟩)
    obtain ⟨hroom, hlog, -⟩ | ⟨-, hlog, -⟩ := writeAndLog_log snap.devAddr (txReg e half) (txByte e half) s
    · exact .inr ⟨hroom, hlog⟩
    · exact .inl hlog
  | emitLast | emitNext => exact .inl (by simp)
  | _ => exact .inl ⟨rfl, rfl⟩

/-- R61, R128: only a StreamEmit step emits, and it emits two bytes. -/
theorem Move.pixOut_eq_or (m : Move s cw snap ext ph t) :
    t.pixOut = s.pixOut ∨
    (cw = 0x22 ∧ (∃ x y, ph = .streamEmit x y) ∧ ∃ lo hi, t.pixOut = s.pixOut ++ [lo, hi]) := by
  cases m with
  | emitLast x y hd =>
    exact .inr ⟨word_of_decode_stream hd, ⟨x, y, rfl⟩, _, _, (finish_pixOut ..).trans (emitPixel_pixOut ..)⟩
  | emitNext x y hd =>
    exact .inr ⟨word_of_decode_stream hd, ⟨x, y, rfl⟩, _, _, (goTo_pixOut ..).trans (emitPixel_pixOut ..)⟩
  | writeOk | writeFail => exact .inl (by simp)
  | _ => exact .inl rfl

/-- R28, R45: only a codec or router command that completes with cause 0 writes DOUT. -/
theorem Move.dout_eq_or (m : Move s cw snap ext ph t) :
    t.dout = s.dout ∨
    (ph = .start ∧ t.engine = .idle ∧ t.cause = .ok ∧ cw.toNat % 256 ∈ [0x10, 0x11, 0x12, 0x20, 0x21]) := by
  cases m with
  | dout st ch v _ hop => exact .inr ⟨rfl, rfl, rfl, hop⟩
  | writeOk | writeFail | emitLast | emitNext => exact .inl (by simp)
  | _ => exact .inl rfl

/-- R33, R34: only STREAM writes POS and PIX_COUNT. -/
theorem Move.position_eq_or (m : Move s cw snap ext ph t) :
    (t.posX = s.posX ∧ t.posY = s.posY ∧ t.pixCount = s.pixCount) ∨ cw = 0x22 := by
  cases m with
  | streamEmpty hd | streamEnter hd | emitLast _ _ hd | emitNext _ _ hd =>
    exact .inr (word_of_decode_stream hd)
  | writeOk | writeFail => exact .inl (by simp)
  | _ => exact .inl ⟨rfl, rfl, rfl⟩

end

/-! ### The effect of a step -/

/-- The fields of the block but those the host writes (R20): what no other agent's turn changes, reset excepted. -/
structure SameBlock (s t : State) : Prop where
  params : t.params = s.params
  doneCnt : t.doneCnt = s.doneCnt
  lastOp : t.lastOp = s.lastOp
  cause : t.cause = s.cause
  errInfo : t.errInfo = s.errInfo
  dout : t.dout = s.dout
  posX : t.posX = s.posX
  posY : t.posY = s.posY
  pixCount : t.pixCount = s.pixCount
  log : t.log = s.log
  busHistory : t.busHistory = s.busHistory
  pixOut : t.pixOut = s.pixOut

/-- The three effects a step that leads on can have on the block. -/
inductive StepEffect (s : State) : State → Prop where
  /-- A Busy engine's turn. -/
  | move (rest : List Turn) (t : State) (cw : Word) (snap : OperandRegs) (ext : ExtSource) (ph : Phase) : EngineNext s rest →
      s.engine = .busy cw snap ext ph → Move { s with script := rest } cw snap ext ph t → StepEffect s t
  /-- Reset (R211). -/
  | reset (rest : List Turn) : s.script = .reset :: rest → StepEffect s (resetBlock { s with script := rest })
  /-- Any other turn: at most an Idle engine accepts a command. -/
  | outside (t : State) : SameBlock s t →
      (t.engine = s.engine ∨ (s.engine = .idle ∧ t.engine.ownsBus = false)) → StepEffect s t

/-- Every step that leads on has one of the effects. -/
theorem step_effect {s t : State} (h : step s = .next t) : StepEffect s t := by
  cases step_kind h with
  | engine rest _ hn ht =>
    obtain ⟨-, rfl⟩ | ⟨cw, snap, ext, ph, he, m⟩ := engineTurn_kind ht
    · exact .outside _ (by constructor <;> rfl) (.inl rfl)
    · exact .move rest t cw snap ext ph hn he m
  | quiet => exact .outside _ (by constructor <;> rfl) (.inl rfl)
  | accepted rest v hidle => exact .outside _ (by constructor <;> rfl) (.inr ⟨hidle, rfl⟩)
  | reset rest hr => exact .reset rest hr

end Sys2Proof.Machine
end

section
/-! # The obligations about what each agent's turn leaves unchanged -/

namespace Sys2Proof.Claims

open Sys2Proof Sys2Proof.Machine

/-- Settles O52: a move adds at most one record or one pixel, and no other turn touches either history. -/
theorem historiesOnlyGrow : Obligations.HistoriesOnlyGrow := by
  intro s t h
  cases step_effect h with
  | move rest _ cw snap ext ph hn he m =>
    refine ⟨m.hostFields.1, ?_, ?_⟩
    · obtain ⟨hb, -⟩ | ⟨i, half, r, -, hb, -⟩ | ⟨-, -, -, hb, -⟩ := m.busHistory_log
      · exact .inl hb
      · exact .inr ⟨r, hb⟩
      · exact .inl hb
    · exact m.pixOut_eq_or.imp_right fun ⟨_, _, hgrow⟩ => hgrow
  | reset rest hr => exact ⟨rfl, .inl rfl, .inl rfl⟩
  | outside _ same _ => exact ⟨same.params, .inl same.busHistory, .inl same.pixOut⟩

/-- Settles O53. -/
theorem commandsNeverWriteOperands : Obligations.CommandsNeverWriteOperands := by
  intro s t rest hn h
  rw [step_engineNext hn] at h
  obtain ⟨-, rfl⟩ | ⟨cw, snap, ext, ph, he, m⟩ := engineTurn_kind h
  · exact ⟨rfl, rfl, rfl⟩
  · exact m.hostFields.2

/-- Settles O54. -/
theorem busyCommandKeepsItsOperands : Obligations.BusyCommandKeepsItsOperands := by
  intro s t cw snap ext ph he h
  cases step_effect h with
  | move rest _ cw' snap' ext' ph' hn he' m =>
    cases he.symm.trans he'
    exact m.completion.imp (fun ⟨hidle, _⟩ => hidle) (fun ⟨hbusy, _⟩ => hbusy)
  | reset rest hr => exact .inl rfl
  | outside _ _ heng =>
    obtain hkeep | ⟨hidle, -⟩ := heng
    · exact .inr ⟨ph, hkeep.trans he⟩
    · cases he.symm.trans hidle

/-- Settles O55: the handle is taken by the move that enters a transaction, and only a SeqWrite step adds a record. -/
theorem busHandleIsScoped : Obligations.BusHandleIsScoped := by
  intro s t h
  cases step_effect h with
  | move rest _ cw snap ext ph hn he m =>
    refine ⟨fun hown => ?_, fun hne => ?_⟩
    · obtain hheld | ⟨rfl, hcw⟩ := m.ownsBus hown
      · exact .inl (he ▸ hheld)
      · exact .inr ⟨rest, cw, snap, ext, hn, he, hcw⟩
    · obtain ⟨hb, -⟩ | ⟨i, half, r, rfl, -⟩ | ⟨-, -, -, hb, -⟩ := m.busHistory_log
      · exact absurd hb hne
      · exact ⟨by rw [he]; rfl, rest, hn⟩
      · exact absurd hb hne
  | reset rest hr => exact ⟨fun hown => absurd hown Bool.false_ne_true, fun hne => absurd rfl hne⟩
  | outside _ same heng =>
    refine ⟨fun hown => ?_, fun hne => absurd same.busHistory hne⟩
    obtain hkeep | ⟨-, hfree⟩ := heng
    · exact .inl (hkeep ▸ hown)
    · exact absurd (hfree.symm.trans hown) Bool.false_ne_true

/-- Settles O56. -/
theorem logChangesOnlyAsItsRulesSay : Obligations.LogChangesOnlyAsItsRulesSay := by
  intro s t h
  cases step_effect h with
  | move rest _ cw snap ext ph hn he m =>
    obtain ⟨-, hlog⟩ | ⟨i, half, r, -, hb, hlog | ⟨hroom, hlog⟩⟩ | ⟨rfl, rfl, hidle, -, hlog, hovf⟩ :=
      m.busHistory_log
    · exact .inl hlog
    · exact .inl hlog
    · exact .inr (.inl ⟨r, hb, hroom, hlog⟩)
    · exact .inr (.inr ⟨hlog, hovf, .inr ⟨snap, ext, he, hidle⟩⟩)
  | reset rest hr => exact .inr (.inr ⟨rfl, rfl, .inl ⟨rest, hr⟩⟩)
  | outside _ same _ => exact .inl same.log

/-- Settles O57: each output has its lemma over the moves, and no other turn but reset writes one. -/
theorem outputsAreWrittenOnlyByTheirCommands : Obligations.OutputsAreWrittenOnlyByTheirCommands := by
  intro s t h
  cases step_effect h with
  | move rest _ cw snap ext ph hn he m =>
    refine ⟨fun hne => ?_, fun _ => ⟨fun hne => ?_, fun hne => ?_⟩⟩
    · obtain ⟨rfl, ⟨x, y, rfl⟩, -⟩ := m.pixOut_eq_or.resolve_left hne
      exact ⟨rest, snap, ext, x, y, hn, he⟩
    · obtain ⟨rfl, hidle, hok, hop⟩ := m.dout_eq_or.resolve_left hne
      exact ⟨rest, cw, snap, ext, hn, he, hidle, hok, hop⟩
    · obtain ⟨hx, hy, hc⟩ | rfl := m.position_eq_or
      · exact (hne.elim (· hx) (Or.elim · (· hy) (· hc))).elim
      · exact ⟨rest, snap, ext, ph, hn, he⟩
  | reset rest hr => exact ⟨fun hne => absurd rfl hne, fun hno => absurd hr (hno rest)⟩
  | outside _ same _ =>
    refine ⟨fun hne => absurd same.pixOut hne, fun _ => ⟨fun hne => absurd same.dout hne, fun hne => ?_⟩⟩
    exact (hne.elim (· same.posX) (Or.elim · (· same.posY) (· same.pixCount))).elim

/-- Settles O60. -/
theorem completionFieldsChangeOnlyAtCompletion : Obligations.CompletionFieldsChangeOnlyAtCompletion := by
  intro s t h hno
  cases step_effect h with
  | move rest _ cw snap ext ph hn he m =>
    obtain ⟨hidle, hcnt, hop⟩ | ⟨-, hkeep⟩ := m.completion
    · exact .inr ⟨hcnt, hidle, ⟨rest, hn⟩, cw, snap, ext, ph, he, hop.trans (opcodeOf_eq_ofNat cw)⟩
    · exact .inl hkeep
  | reset rest hr => exact absurd hr (hno rest)
  | outside _ same _ => exact .inl ⟨same.doneCnt, same.lastOp, same.cause, same.errInfo⟩

end Sys2Proof.Claims
end

section
/-! # A running command and the host's registers (R48)

`withHost` overwrites what the host may write while a command runs. Every engine turn commutes with it: the primitives of
Machine/Ops.lean do by `rfl`, so the proof follows the commands down to them. -/

namespace Sys2Proof.Machine

/-- The state with its operand CSRs, LOG_SEL and REJ set. -/
def withHost (r : OperandRegs) (sel : BitVec 16) (b : Bool) (s : State) : State :=
  { s with regs := r, logSel := sel, rej := b }

/-- A step's answer with its next state changed by `f`. -/
def mapNext (f : State → State) : Result → Result
  | .next t => .next (f t)
  | .fault e => .fault e
  | .refused e => .refused e

section
variable (r : OperandRegs) (sel : BitVec 16) (b : Bool) (s : State)

/-! ### The shared operations -/

theorem withHost_engine : (withHost r sel b s).engine = s.engine := rfl

theorem atStart_withHost {f g : Word → OperandRegs → ExtSource → Result}
    (h : ∀ cw snap ext, g cw snap ext = mapNext (withHost r sel b) (f cw snap ext)) :
    atStart (withHost r sel b s) g = mapNext (withHost r sel b) (atStart s f) := by
  unfold atStart
  rw [withHost_engine]
  cases s.engine with
  | idle => rfl
  | busy cw snap ext ph =>
    cases ph with
    | start => exact h cw snap ext
    | seqWrite | seqSettle | streamEmit => rfl

theorem writeAndLog_withHost (dev : BitVec 7) (reg : RegAddr) (byte : Byte) :
    writeAndLog dev reg byte (withHost r sel b s) = withHost r sel b (writeAndLog dev reg byte s) := by
  unfold writeAndLog logAppend
  rw [apply_ite (withHost r sel b)]
  rfl

theorem txStart_withHost (entries : List TxEntry) (cw : Word) (snap : OperandRegs) (ext : ExtSource) :
    txStart entries cw snap ext (withHost r sel b s) = mapNext (withHost r sel b) (txStart entries cw snap ext s) := by
  unfold txStart
  cases validateFrom 0 entries with
  | some f => rfl
  | none => cases entries <;> rfl

theorem txWrite_withHost (entries : List TxEntry) (cw : Word) (snap : OperandRegs) (ext : ExtSource) (i : Nat) (half : Half) :
    txWrite entries cw snap ext i half (withHost r sel b s) =
      mapNext (withHost r sel b) (txWrite entries cw snap ext i half s) := by
  have hbus : busOutcome (withHost r sel b s) = busOutcome s := rfl
  unfold txWrite
  cases entries[i]? with
  | none => rfl
  | some e =>
    simp only [hbus, writeAndLog_withHost, apply_ite (mapNext (withHost r sel b))]
    cases busOutcome s <;> rfl

theorem txSettle_withHost (entries : List TxEntry) (cw : Word) (snap : OperandRegs) (ext : ExtSource) (i : Nat) :
    txSettle entries cw snap ext i (withHost r sel b s) =
      mapNext (withHost r sel b) (txSettle entries cw snap ext i s) := by
  simp only [txSettle, apply_ite (mapNext (withHost r sel b))]
  rfl

theorem streamStart_withHost (cw : Word) (snap : OperandRegs) (ext : ExtSource) :
    streamStart cw snap ext (withHost r sel b s) = mapNext (withHost r sel b) (streamStart cw snap ext s) := by
  simp only [streamStart, apply_ite (mapNext (withHost r sel b))]
  rfl

theorem streamEmitStep_withHost (cw : Word) (snap : OperandRegs) (ext : ExtSource) (x y : Nat) :
    streamEmitStep cw snap ext x y (withHost r sel b s) =
      mapNext (withHost r sel b) (streamEmitStep cw snap ext x y s) := by
  simp only [streamEmitStep, apply_ite (mapNext (withHost r sel b))]
  rfl

/-! ### The commands -/

theorem execStream_withHost : execStream (withHost r sel b s) = mapNext (withHost r sel b) (execStream s) := by
  unfold execStream
  rw [withHost_engine]
  cases s.engine with
  | idle => rfl
  | busy cw snap ext ph =>
    cases ph with
    | start => exact streamStart_withHost r sel b s cw snap ext
    | streamEmit x y => exact streamEmitStep_withHost r sel b s cw snap ext x y
    | seqWrite | seqSettle => rfl

theorem execSeqList_withHost : execSeqList (withHost r sel b s) = mapNext (withHost r sel b) (execSeqList s) := by
  unfold execSeqList
  rw [withHost_engine]
  cases s.engine with
  | idle => rfl
  | busy cw snap ext ph =>
    cases ph with
    | start =>
      simp only [txStart_withHost, apply_ite (mapNext (withHost r sel b))]
      rfl
    | seqWrite i half => exact txWrite_withHost r sel b s _ cw snap ext i half
    | seqSettle i => exact txSettle_withHost r sel b s _ cw snap ext i
    | streamEmit => rfl

theorem execSeqTp_withHost : execSeqTp (withHost r sel b s) = mapNext (withHost r sel b) (execSeqTp s) := by
  unfold execSeqTp
  rw [withHost_engine]
  cases s.engine with
  | idle => rfl
  | busy cw snap ext ph =>
    cases ph with
    | start => exact txStart_withHost r sel b s _ cw snap ext
    | seqWrite i half => exact txWrite_withHost r sel b s _ cw snap ext i half
    | seqSettle i => exact txSettle_withHost r sel b s _ cw snap ext i
    | streamEmit => rfl

/-- R48: what a command does does not depend on the host's registers, which it leaves. -/
theorem exec_withHost (i : Instr) : exec i (withHost r sel b s) = mapNext (withHost r sel b) (exec i s) := by
  cases i with
  | nop | logClear | unpack | rescale | route => exact atStart_withHost r sel b s fun _ _ _ => rfl
  | pack | pixel =>
    refine atStart_withHost r sel b s fun _ _ _ => ?_
    rw [apply_ite (mapNext (withHost r sel b))]
    rfl
  | stream => exact execStream_withHost r sel b s
  | seqList => exact execSeqList_withHost r sel b s
  | seqTp => exact execSeqTp_withHost r sel b s

/-- R48: an engine turn does not depend on the host's registers, which it leaves. -/
theorem engineTurn_withHost : engineTurn (withHost r sel b s) = mapNext (withHost r sel b) (engineTurn s) := by
  unfold engineTurn
  rw [withHost_engine]
  cases s.engine with
  | idle => rfl
  | busy cw snap ext ph =>
    dsimp only
    cases decode cw with
    | ok i => exact exec_withHost r sel b s i
    | error => exact atStart_withHost r sel b s fun _ _ _ => rfl

end

end Sys2Proof.Machine

namespace Sys2Proof.Claims

open Sys2Proof Sys2Proof.Machine

/-- Settles O43: the engine turn commutes with setting the host's registers. -/
theorem runningCommandNeverSeesHostWrites : Obligations.RunningCommandNeverSeesHostWrites := by
  intro s t r sel b rest hn _ h
  rw [step_engineNext hn] at h
  have hn' : EngineNext (withHost r sel b s) rest := hn
  calc step (withHost r sel b s)
      = engineTurn (withHost r sel b { s with script := rest }) := step_engineNext hn'
    _ = mapNext (withHost r sel b) (engineTurn { s with script := rest }) := engineTurn_withHost r sel b _
    _ = .next (withHost r sel b t) := by rw [h]; rfl

end Sys2Proof.Claims
end

section
/-! # The run of a STREAM over its whole range

A stream's pixels are numbered in row-major order: `pixelAt snap n` is the position of pixel `n`, and there are `rangeSize snap`
of them. `afterPixels` is the state after the first `n`, and `streamAfter` the same with the engine before pixel `n`. The Start
step leads to `streamAfter` 0, each pixel but the last to the next number, and the last one to the completion. -/

namespace Sys2Proof.Machine

/-! ### The steps of a stream, forwards (R127, R128) -/

section
variable {s : State} {cw : Word} {snap : OperandRegs} {ext : ExtSource}

theorem execStream_start (he : s.engine = .busy cw snap ext .start) : execStream s = streamStart cw snap ext s := by
  unfold execStream; rw [he]

theorem execStream_streamEmit {x y : Nat} (he : s.engine = .busy cw snap ext (.streamEmit x y)) :
    execStream s = streamEmitStep cw snap ext x y s := by
  unfold execStream; rw [he]

/-- R83: with no turn in the script, a step of an engine that holds STREAM is `execStream`. -/
theorem step_stream {ph : Phase} (hs : s.script = []) (he : s.engine = .busy 0x22 snap ext ph) : step s = execStream s := by
  have hd : decode 0x22 = .ok .stream := by decide
  rw [step_nil hs, engineTurn_busy he hd, exec]

/-- R127: past validation, the Start step completes an empty range and enters any other. -/
theorem streamStart_valid (hd : streamDimBad s.params.maxDim snap = false) (hv : streamValueBad snap ext = false) :
    streamStart cw snap ext s =
      if snap.frameW = 0#16 ∨ snap.rowY0 = snap.rowY1 then
        .next (complete cw { setPos 0 snap.rowY0.toNat s with pixCount := 0 })
      else .next (goTo cw snap ext (.streamEmit 0 snap.rowY0.toNat) { setPos 0 snap.rowY0.toNat s with pixCount := 0 }) := by
  unfold streamStart
  rw [hd, hv]
  rfl

/-- R128: a pixel in range is emitted, and the command ends behind the last row or goes on to the next pixel. -/
theorem streamEmitStep_inRange {x y : Nat} (h : (pixval snap ext x y).toNat ≤ 1023) :
    streamEmitStep cw snap ext x y s =
      if (nextPixel snap.frameW.toNat x y).2 = snap.rowY1.toNat then
        .next (complete cw (emitPixel (pixval snap ext x y) (nextPixel snap.frameW.toNat x y) s))
      else
        .next (goTo cw snap ext (.streamEmit (nextPixel snap.frameW.toNat x y).1 (nextPixel snap.frameW.toNat x y).2)
          (emitPixel (pixval snap ext x y) (nextPixel snap.frameW.toNat x y) s)) := by
  have hr : ¬ outOfRange (pixval snap ext x y) = true := by rw [outOfRange_iff]; omega
  exact if_neg hr

end

/-! ### The pixels of a range by number -/

/-- R127: how many pixels the snapshot's row range has. -/
def rangeSize (snap : OperandRegs) : Nat := snap.frameW.toNat * (snap.rowY1.toNat - snap.rowY0.toNat)

/-- R128: the position of pixel `n` of the snapshot's row range. -/
def pixelAt (snap : OperandRegs) (n : Nat) : Nat × Nat :=
  (n % snap.frameW.toNat, snap.rowY0.toNat + n / snap.frameW.toNat)

theorem pixelAt_zero (snap : OperandRegs) : pixelAt snap 0 = (0, snap.rowY0.toNat) := by simp [pixelAt]

/-- R127: an ordered range is empty when it has no columns or no rows. -/
theorem rangeSize_eq_zero_iff {snap : OperandRegs} (hy : snap.rowY0.toNat ≤ snap.rowY1.toNat) :
    rangeSize snap = 0 ↔ snap.frameW = 0#16 ∨ snap.rowY0 = snap.rowY1 := by
  rw [rangeSize, Nat.mul_eq_zero, ← BitVec.toNat_inj, ← BitVec.toNat_inj, BitVec.toNat_ofNat]
  omega

/-- R128: in row-major order pixel `n + 1` of a `w`-wide range comes after pixel `n`. -/
theorem nextPixel_divMod {w : Nat} (hw : 0 < w) (y0 n : Nat) :
    nextPixel w (n % w) (y0 + n / w) = ((n + 1) % w, y0 + (n + 1) / w) := by
  have hx := Nat.mod_lt n hw
  have hrow : y0 + n / w ≤ (nextPixel w (n % w) (y0 + n / w)).2 := by
    obtain h | h := nextPixel_snd_eq w (n % w) (y0 + n / w) <;> omega
  have hindex := nextPixel_index hx (Nat.le_add_right y0 (n / w))
  rw [Nat.add_sub_cancel_left, Nat.div_add_mod, Nat.add_comm] at hindex
  obtain ⟨hdiv, hmod⟩ := (Nat.div_mod_unique hw).2 ⟨hindex, nextPixel_fst_lt _ hx⟩
  rw [hdiv, hmod, Nat.add_sub_cancel' ((Nat.le_add_right _ _).trans hrow)]

theorem nextPixel_pixelAt {snap : OperandRegs} (hw : 0 < snap.frameW.toNat) (n : Nat) :
    nextPixel snap.frameW.toNat (pixelAt snap n).1 (pixelAt snap n).2 = pixelAt snap (n + 1) :=
  nextPixel_divMod hw _ n

section
variable {snap : OperandRegs} {n : Nat}

theorem frameW_pos_of_lt (hn : n < rangeSize snap) : 0 < snap.frameW.toNat :=
  Nat.pos_of_mul_pos_right (Nat.zero_lt_of_lt hn)

theorem pixelAt_row_lt (hn : n < rangeSize snap) : (pixelAt snap n).2 < snap.rowY1.toNat := by
  have hdiv : n / snap.frameW.toNat < snap.rowY1.toNat - snap.rowY0.toNat := Nat.div_lt_of_lt_mul hn
  exact Nat.add_lt_of_lt_sub' hdiv

/-- R127: past the value checks every pixel of the range has a value of at most 1023. -/
theorem pixval_pixelAt_le {ext : ExtSource} (hv : streamValueBad snap ext = false) (hn : n < rangeSize snap) :
    (pixval snap ext (pixelAt snap n).1 (pixelAt snap n).2).toNat ≤ 1023 :=
  pixval_le_of_valid (by simp [hv]) (Nat.mod_lt n (frameW_pos_of_lt hn)) (Nat.le_add_right _ _) (pixelAt_row_lt hn)

/-- R128: behind a pixel of the range stands row Y1 only when the pixel was the last. -/
theorem pixelAt_succ_row_eq_end_iff (hn : n < rangeSize snap) :
    (pixelAt snap (n + 1)).2 = snap.rowY1.toNat ↔ n + 1 = rangeSize snap := by
  constructor
  · intro hend
    by_contra hne
    exact absurd hend (pixelAt_row_lt (by omega)).ne
  · intro hlast
    have hdiv : rangeSize snap / snap.frameW.toNat = snap.rowY1.toNat - snap.rowY0.toNat :=
      Nat.mul_div_cancel_left _ (frameW_pos_of_lt hn)
    have hy := (Nat.le_add_right snap.rowY0.toNat _).trans_lt (pixelAt_row_lt hn)
    rw [hlast, pixelAt, hdiv]
    exact Nat.add_sub_cancel' hy.le

end

end Sys2Proof.Machine

namespace Sys2Proof.Claims

open Sys2Proof Sys2Proof.Machine

/-! ### Pixel values and validation, in the statements' terms -/

/-- R120, R124: a pixel's value, by the parities of its row and column. -/
theorem pixval_toNat (snap : OperandRegs) (ext : ExtSource) (x y : Nat) :
    (pixval snap ext x y).toNat = pixelRaw snap ext x y := by
  unfold pixval pixelRaw chan
  split_ifs <;> rfl

/-- R100: the two bytes of a packed value. -/
theorem packed_eq_sampleBytes {v : Raw16} (h : v.toNat ≤ 1023) :
    [packLsb (sampleOf v), packMsb (sampleOf v)] = sampleBytes v.toNat := by
  have hlo : packLsb (sampleOf v) = BitVec.ofNat 8 (v.toNat % 256) := by
    rw [← sampleOf_toNat v h, ← packLsb_toNat, BitVec.ofNat_toNat, BitVec.setWidth_eq]
  have hhi : packMsb (sampleOf v) = BitVec.ofNat 8 (v.toNat / 256) := by
    rw [← sampleOf_toNat v h, ← packMsb_toNat, BitVec.ofNat_toNat, BitVec.setWidth_eq]
  rw [hlo, hhi, sampleBytes]

theorem streamDimBad_eq_false {maxDim : Nat} {snap : OperandRegs} (h : ¬ dimBad maxDim snap) :
    streamDimBad maxDim snap = false :=
  Bool.eq_false_iff.2 fun hb => h ((streamDimBad_iff maxDim snap).1 hb)

theorem streamValueBad_eq_false {snap : OperandRegs} {ext : ExtSource} (h : ¬ valueBad snap ext) :
    streamValueBad snap ext = false := by
  refine Bool.eq_false_iff.2 fun hb => h ?_
  simpa only [valueBad, pixval_toNat] using (streamValueBad_iff snap ext).1 hb

/-! ### The state after some of a stream's pixels -/

/-- R61, R128: the bytes of the first `n` pixels of the range. -/
def pixelBytes (snap : OperandRegs) (ext : ExtSource) (n : Nat) : List Byte :=
  (List.range n).flatMap fun i => sampleBytes (pixelRaw snap ext (pixelAt snap i).1 (pixelAt snap i).2)

/-- R128: `s` after the first `n` pixels of the range: their bytes, PIX_COUNT and POS. -/
def afterPixels (s : State) (snap : OperandRegs) (ext : ExtSource) (n : Nat) : State :=
  setPos (pixelAt snap n).1 (pixelAt snap n).2
    { s with pixOut := s.pixOut ++ pixelBytes snap ext n, pixCount := BitVec.ofNat 32 n }

/-- R128: the same with the engine before pixel `n`. -/
def streamAfter (s : State) (snap : OperandRegs) (ext : ExtSource) (n : Nat) : State :=
  goTo 0x22 snap ext (.streamEmit (pixelAt snap n).1 (pixelAt snap n).2) (afterPixels s snap ext n)

section
variable {s : State} {snap : OperandRegs} {ext : ExtSource} {n : Nat}

/-- R127: at the start of the range no pixel is emitted. -/
theorem afterPixels_zero : afterPixels s snap ext 0 = { setPos 0 snap.rowY0.toNat s with pixCount := 0 } := by
  rw [afterPixels, pixelAt_zero, pixelBytes, List.range_zero, List.flatMap_nil, List.append_nil]
  rfl

/-- R128: emitting pixel `n` leads from the first `n` pixels to the first `n + 1`. -/
theorem emitPixel_afterPixels (h : (pixval snap ext (pixelAt snap n).1 (pixelAt snap n).2).toNat ≤ 1023) :
    emitPixel (pixval snap ext (pixelAt snap n).1 (pixelAt snap n).2) (pixelAt snap (n + 1)) (afterPixels s snap ext n) =
      afterPixels s snap ext (n + 1) := by
  have hbytes := packed_eq_sampleBytes h
  rw [pixval_toNat] at hbytes
  have hcount : BitVec.ofNat 32 (n + 1) = BitVec.ofNat 32 n + 1 := BitVec.ofNat_add n 1
  simp [afterPixels, emitPixel, setPos, emit, pixelBytes, List.range_succ, hcount, ← hbytes]

/-- R128: all pixels of the range emitted and the command completed, in the statement's terms. -/
theorem complete_afterPixels_rangeSize (hy : snap.rowY0.toNat ≤ snap.rowY1.toNat) :
    complete 0x22 (afterPixels s snap ext (rangeSize snap)) =
      { ended s .ok ⟨0, 0, 0⟩ 0x22 with
        pixOut := s.pixOut ++ frameBytes snap.frameW.toNat snap.rowY0.toNat snap.rowY1.toNat (pixelRaw snap ext)
        pixCount := BitVec.ofNat 32 (snap.frameW.toNat * (snap.rowY1.toNat - snap.rowY0.toNat))
        posX := 0
        posY := if snap.frameW = 0#16 then snap.rowY0 else snap.rowY1 } := by
  have hx : (pixelAt snap (rangeSize snap)).1 = 0 := Nat.mul_mod_right _ _
  have hrow : BitVec.ofNat 16 (pixelAt snap (rangeSize snap)).2 = if snap.frameW = 0#16 then snap.rowY0 else snap.rowY1 := by
    split
    next hw => simp [pixelAt, hw]
    next hw =>
      have hpos : 0 < snap.frameW.toNat := Nat.pos_of_ne_zero fun h => hw (BitVec.eq_of_toNat_eq h)
      rw [pixelAt, rangeSize, Nat.mul_div_cancel_left _ hpos, Nat.add_sub_cancel' hy, BitVec.ofNat_toNat, BitVec.setWidth_eq]
  rw [← hrow, afterPixels, hx]
  rfl

/-! ### The steps and the run -/

section
variable (hs : s.script = []) (hv : streamValueBad snap ext = false)
include hs hv

/-- R127: past validation, the Start step stands before pixel 0, or completes an empty range. -/
theorem step_streamStart (he : s.engine = .busy 0x22 snap ext .start) (hd : streamDimBad s.params.maxDim snap = false)
    (hy : snap.rowY0.toNat ≤ snap.rowY1.toNat) :
    step s = if rangeSize snap = 0 then .next (complete 0x22 (afterPixels s snap ext 0))
      else .next (streamAfter s snap ext 0) := by
  simp only [rangeSize_eq_zero_iff hy, streamAfter, afterPixels_zero, pixelAt_zero]
  rw [step_stream hs he, execStream_start he, streamStart_valid hd hv]

/-- R128: the step of pixel `n` stands before pixel `n + 1`, or completes the command when there is none. -/
theorem step_streamAfter (hn : n < rangeSize snap) :
    step (streamAfter s snap ext n) =
      if n + 1 = rangeSize snap then .next (complete 0x22 (afterPixels s snap ext (n + 1)))
      else .next (streamAfter s snap ext (n + 1)) := by
  have hval := pixval_pixelAt_le hv hn
  rw [step_stream (s := streamAfter s snap ext n) hs rfl, execStream_streamEmit rfl, streamEmitStep_inRange hval,
    nextPixel_pixelAt (frameW_pos_of_lt hn)]
  simp only [pixelAt_succ_row_eq_end_iff hn, streamAfter, ← emitPixel_afterPixels hval]
  rfl

/-- R128: `n` steps emit the first `n` pixels. -/
theorem run_streamAfter (hn : n < rangeSize snap) : runsTo n (streamAfter s snap ext 0) (streamAfter s snap ext n) := by
  induction n with
  | zero => exact run_zero _
  | succ n ih =>
    have hstep := step_streamAfter hs hv (n := n) (by omega)
    rw [if_neg (by omega)] at hstep
    exact run_add (ih (by omega)) (run_one hstep)

/-- R129: a validated STREAM emits its range and completes, in one step more than it has pixels. -/
theorem run_stream (he : s.engine = .busy 0x22 snap ext .start) (hd : streamDimBad s.params.maxDim snap = false)
    (hy : snap.rowY0.toNat ≤ snap.rowY1.toNat) :
    runsTo (rangeSize snap + 1) s (complete 0x22 (afterPixels s snap ext (rangeSize snap))) := by
  have hstart := step_streamStart hs hv he hd hy
  cases hsize : rangeSize snap with
  | zero =>
    rw [if_pos hsize] at hstart
    exact run_one hstart
  | succ n =>
    have hlast := step_streamAfter hs hv (n := n) (by omega)
    rw [if_neg (by omega)] at hstart
    rw [if_pos hsize.symm] at hlast
    exact (run_succ hstart _).trans (run_add (run_streamAfter hs hv (by omega)) (run_one hlast))

end

end

/-- Settles O22: the run of `run_stream`, with its last state written out. -/
theorem streamEmitsItsWholeRange : Obligations.StreamEmitsItsWholeRange := by
  intro s snap ext hs he hdim hval
  have hy : snap.rowY0.toNat ≤ snap.rowY1.toNat := by
    by_contra hlt
    exact hdim (.inr (.inr (.inl (by omega))))
  rw [← complete_afterPixels_rangeSize hy]
  exact run_stream hs (streamValueBad_eq_false hval) he (streamDimBad_eq_false hdim) hy

end Sys2Proof.Claims
end

section
/-! # Placing a command, and the host accesses the model admits and refuses -/

namespace Sys2Proof.Machine

/-- R80: a word of 32 bits is placed as it is. -/
theorem withFetchWord_toNat (s : State) (cw : Word) : s.withFetchWord 32 cw.toNat = placeCommand cw s := by
  rw [State.withFetchWord, Nat.mod_eq_of_lt cw.isLt, BitVec.ofNat_toNat, BitVec.setWidth_eq]

theorem admitted_iff (width off : Nat) : admitted width off = true ↔ width = 4 ∧ off % 4 = 0 ∧ off < 0x100 := by
  simp [admitted, and_assoc]

/-- R65: what a read returns does not depend on the coming turns. -/
theorem memRead_script (s : State) (rest : List Turn) (off : Nat) : memRead { s with script := rest } off = memRead s off :=
  rfl

end Sys2Proof.Machine

namespace Sys2Proof.Claims

open Sys2Proof Sys2Proof.Machine

/-- Settles O10: the placed word stands in the engine, and the coming turn is the engine's. -/
theorem placedCommandRunsNext : Obligations.PlacedCommandRunsNext := by
  intro s cw i hi
  rw [withFetchWord_toNat, step_engineNext (.inr rfl), engineTurn_busy rfl hi]
  rfl

/-- Settles O38. -/
theorem hostReadsHaveNoSideEffect : Obligations.HostReadsHaveNoSideEffect := by
  intro s off rest hs ha hlt
  rw [step_cons hs, takeTurn, hostRead, if_pos ((admitted_iff 4 off).2 ⟨rfl, ha, hlt⟩), memRead_script]

/-- Settles O39: the access is not admitted, so either turn is refused. -/
theorem otherHostAccessesAreRefused : Obligations.OtherHostAccessesAreRefused := by
  intro s width off v rest hbad
  have hadm : ¬ admitted width off = true := by rw [admitted_iff]; omega
  refine ⟨fun hs => ?_, fun hs => ?_⟩
  · rw [step_cons hs, takeTurn, hostRead, if_neg hadm]
  · rw [step_cons hs, takeTurn, hostWrite, if_neg hadm]

end Sys2Proof.Claims
end

section
/-! # Command words as numbers (R80 to R85)

A command's word is its opcode byte under its operand bits (`encode_toNat`). What a format's decoder answers depends on the
word's bits 31:8 alone (`decodeLike_eq_ok_iff`, `decodeLike_error_iff`); so `decode` reads a word as command `i` exactly when
the word is `encode i` (`decode_eq_ok_iff`). -/

namespace Sys2Proof.Machine

/-! ### Encoding -/

/-- R81: bits 31:8 of a command's word, as a number. -/
def operandBits : Instr → Nat
  | .nop | .logClear | .stream | .seqList | .seqTp => 0
  | .pack value => value.toNat * 2 ^ 8
  | .unpack lsb msb => msb.toNat * 2 ^ 16 + lsb.toNat * 2 ^ 8
  | .rescale v8 => v8.toNat * 2 ^ 8
  | .route x y | .pixel x y => y.toNat * 2 ^ 12 + x.toNat

/-- R81, R83: the operand bits stand above the opcode. -/
theorem encode_toNat (i : Instr) : (encode i).toNat = operandBits i * 2 ^ 8 + i.opcode.toNat := by
  cases i with
  | nop | logClear | stream | seqList | seqTp => rfl
  | route | pixel =>
    rw [encode, append_toNat_mul, append_toNat_mul]
    rfl
  | pack | unpack | rescale =>
    simp only [encode, operandBits, Instr.opcode, append_toNat_mul, BitVec.toNat_ofNat, BitVec.reduceToNat]
    omega

theorem encode_eq_iff (i : Instr) (cw : Word) :
    encode i = cw ↔ opcodeOf cw = i.opcode ∧ cw.toNat / 256 = operandBits i := by
  have hop := i.opcode.isLt
  rw [← BitVec.toNat_inj, encode_toNat, opcodeOf_eq_iff]
  omega

/-! ### Decoding -/

/-- R81, R83: the format decoder of a command's opcode; the operands of the command given are not read. -/
def decodeLike (cw : Word) : Instr → Except Illegal Instr
  | .nop => decodeN cw .nop
  | .logClear => decodeN cw .logClear
  | .pack _ => decodeI16 cw .pack
  | .unpack _ _ => decodeBB cw .unpack
  | .rescale _ => decodeI8 cw .rescale
  | .route _ _ => decodeXY cw .route
  | .pixel _ _ => decodeXY cw .pixel
  | .stream => decodeN cw .stream
  | .seqList => decodeN cw .seqList
  | .seqTp => decodeN cw .seqTp

/-- R84: a word with a command's opcode is decoded in that command's format. -/
theorem decode_of_opcode {cw : Word} {i : Instr} (h : opcodeOf cw = i.opcode) : decode cw = decodeLike cw i := by
  cases i
  all_goals
    rw [decode, h]
    rfl

/-- R83: the ten opcodes, as numbers. -/
def assignedOpcodes : List Nat := [0x00, 0x01, 0x10, 0x11, 0x12, 0x20, 0x21, 0x22, 0x30, 0x31]

theorem exists_instr_of_assigned {n : Nat} (h : n ∈ assignedOpcodes) : ∃ i : Instr, n = i.opcode.toNat := by
  simp only [assignedOpcodes, List.mem_cons, List.not_mem_nil, or_false] at h
  obtain rfl | rfl | rfl | rfl | rfl | rfl | rfl | rfl | rfl | rfl := h
  exacts [⟨.nop, rfl⟩, ⟨.logClear, rfl⟩, ⟨.pack 0, rfl⟩, ⟨.unpack 0 0, rfl⟩, ⟨.rescale 0, rfl⟩, ⟨.route 0 0, rfl⟩,
    ⟨.pixel 0 0, rfl⟩, ⟨.stream, rfl⟩, ⟨.seqList, rfl⟩, ⟨.seqTp, rfl⟩]

/-- R85: a word whose opcode is in no row of R83 is rejected. -/
theorem decode_of_unassigned {cw : Word} (h : cw.toNat % 256 ∉ assignedOpcodes) : decode cw = .error .opcode := by
  simp only [assignedOpcodes, List.mem_cons, List.not_mem_nil, or_false, not_or] at h
  simp [decode, opcodeOf_eq_iff, h]

section
variable {P : Prop} [Decidable P] {i j : Instr}

theorem ite_reserved_eq_ok_iff :
    (if P then Except.ok i else Except.error Illegal.reservedBits) = Except.ok j ↔ P ∧ i = j := by
  split <;> simp [*]

theorem exists_ite_reserved_eq_error_iff :
    (∃ e, (if P then Except.ok i else Except.error Illegal.reservedBits) = Except.error e) ↔ ¬ P := by
  split <;> simp [*]

end

section
variable {cw : Word} {i : Instr}

/-- R81: in its own format a word is read as the command whose operand bits are the word's. -/
theorem decodeLike_eq_ok_iff : decodeLike cw i = .ok i ↔ cw.toNat / 256 = operandBits i := by
  have hcw := cw.isLt
  cases i with
  | nop | logClear | stream | seqList | seqTp =>
    simp only [decodeLike, decodeN, ite_reserved_eq_ok_iff, field_eq_iff, operandBits, BitVec.toNat_ofNat, and_true]
    omega
  | pack v =>
    simp only [decodeLike, decodeI16, ite_reserved_eq_ok_iff, field_eq_iff, operandBits, BitVec.toNat_ofNat,
      Instr.pack.injEq]
    omega
  | unpack l m =>
    simp only [decodeLike, decodeBB, ite_reserved_eq_ok_iff, field_eq_iff, operandBits, BitVec.toNat_ofNat,
      Instr.unpack.injEq]
    omega
  | rescale v8 =>
    simp only [decodeLike, decodeI8, ite_reserved_eq_ok_iff, field_eq_iff, operandBits, BitVec.toNat_ofNat,
      Instr.rescale.injEq]
    omega
  | route x y | pixel x y =>
    simp only [decodeLike, decodeXY, Except.ok.injEq, Instr.route.injEq, Instr.pixel.injEq, field_eq_iff, operandBits]
    omega

/-- R81: the reserved bits of a command's format hold something but 0. -/
def reservedBitSet (cw : Word) : Instr → Prop
  | .nop | .logClear | .stream | .seqList | .seqTp => cw.toNat / 256 ≠ 0
  | .pack _ | .unpack _ _ => cw.toNat / 256 % 256 ≠ 0
  | .rescale _ => cw.toNat / 256 % 256 ≠ 0 ∨ cw.toNat / 2 ^ 24 ≠ 0
  | .route _ _ | .pixel _ _ => False

/-- R85: a format's decoder rejects the words with a reserved bit set. -/
theorem decodeLike_error_iff : (∃ e, decodeLike cw i = .error e) ↔ reservedBitSet cw i := by
  have hcw := cw.isLt
  cases i with
  | nop | logClear | stream | seqList | seqTp =>
    simp only [decodeLike, decodeN, exists_ite_reserved_eq_error_iff, field_eq_iff, reservedBitSet, BitVec.toNat_ofNat]
    omega
  | pack | unpack =>
    simp only [decodeLike, decodeI16, decodeBB, exists_ite_reserved_eq_error_iff, field_eq_iff, reservedBitSet,
      BitVec.toNat_ofNat]
    omega
  | rescale =>
    simp only [decodeLike, decodeI8, exists_ite_reserved_eq_error_iff, field_eq_iff, reservedBitSet, BitVec.toNat_ofNat]
    omega
  | route | pixel => simp [decodeLike, decodeXY, reservedBitSet]

/-- R80, R84: a word decodes to a command exactly when it is the command's word. -/
theorem decode_eq_ok_iff : decode cw = .ok i ↔ encode i = cw := by
  rw [encode_eq_iff]
  constructor
  · intro h
    have hop : opcodeOf cw = i.opcode := (opcodeOf_eq_iff cw _).2 (decode_opcode h)
    exact ⟨hop, decodeLike_eq_ok_iff.1 (decode_of_opcode hop ▸ h)⟩
  · rintro ⟨hop, hbits⟩
    rw [decode_of_opcode hop]
    exact decodeLike_eq_ok_iff.2 hbits

end

end Sys2Proof.Machine

namespace Sys2Proof.Claims

open Sys2Proof Sys2Proof.Machine

/-- R85: a word with a command's opcode is illegal exactly when a reserved bit of the command's format is set. -/
theorem illegalWord_iff_of_opcode {cw : Word} {i : Instr} (hop : cw.toNat % 256 = i.opcode.toNat) :
    illegalWord cw ↔ reservedBitSet cw i := by
  cases i <;> simp [illegalWord, hop, reservedBitSet, Instr.opcode]

/-- Settles O1: the command's word is its own. -/
theorem decodeOfEncode : Obligations.DecodeOfEncode := fun _ => decode_eq_ok_iff.2 rfl

/-- Settles O2, the other direction of `decode_eq_ok_iff`. -/
theorem encodeOfDecode : Obligations.EncodeOfDecode := fun _ _ => decode_eq_ok_iff.1

/-- Settles O3: an opcode in no row is rejected and illegal; at any other opcode both sides ask for a reserved bit of its
format. -/
theorem rejectedWordsAreTheIllegalOnes : Obligations.RejectedWordsAreTheIllegalOnes := by
  intro cw
  by_cases hmem : cw.toNat % 256 ∈ assignedOpcodes
  · obtain ⟨i, hop⟩ := exists_instr_of_assigned hmem
    rw [decode_of_opcode ((opcodeOf_eq_iff cw _).2 hop), decodeLike_error_iff, illegalWord_iff_of_opcode hop]
  · exact iff_of_true ⟨_, decode_of_unassigned hmem⟩ (.inl hmem)

end Sys2Proof.Claims
end

section
/-! # Illegal words, lines of assembly and host steps (R85 to R88) -/

namespace Sys2Proof.Machine

/-! ### Illegal words -/

/-- R85: the turn of an engine that holds a rejected word. -/
theorem engineTurn_illegal {s : State} {cw : Word} {snap : OperandRegs} {ext : ExtSource} {e : Illegal}
    (hs : s.engine = .busy cw snap ext .start) (he : decode cw = .error e) :
    engineTurn s = .next (finish .illegalCmd ⟨0, 0, 0⟩ cw s) := by
  unfold engineTurn
  rw [hs]
  simp only [he]
  exact atStart_start hs _

/-- R64, R188: a CMD write to an Idle engine, as a step. -/
theorem step_cmdWrite_idle {s : State} {cw : Word} {rest : List Turn} (hs : s.script = .write 4 0x00C cw :: rest)
    (hidle : s.engine = .idle) : step s = .next (accept cw { s with script := rest }) := by
  rw [step_hostWrite hs rfl (by decide), memWrite_of_csrAt rfl, writeCsr, issue_idle (s := { s with script := rest }) hidle]

/-! ### Lines of assembly -/

/-- R81, R87: the word of a line of assembly whose operands are in range: the sum of its fields. -/
def asmWord : Asm → Nat
  | .nop => 0x00
  | .logClear => 0x01
  | .pack value => value * 2 ^ 16 + 0x10
  | .unpack lsb msb => msb * 2 ^ 24 + lsb * 2 ^ 16 + 0x11
  | .rescale v8 => v8 * 2 ^ 16 + 0x12
  | .route x y => y * 2 ^ 20 + x * 2 ^ 8 + 0x20
  | .pixel x y => y * 2 ^ 20 + x * 2 ^ 8 + 0x21
  | .stream => 0x22
  | .seqList => 0x30
  | .seqTp => 0x31

/-- R87: an operand in range is encoded as it is written, and one out of range is an error. -/
theorem assemble_map_encode (a : Asm) :
    a.assemble.map (fun i => (encode i).toNat) = if a.wf then some (asmWord a) else none := by
  unfold Asm.assemble
  split
  next hwf =>
    cases a with
    | nop | logClear | stream | seqList | seqTp => rfl
    | pack | unpack | rescale | route | pixel =>
      simp only [Asm.wf, Bool.and_eq_true, decide_eq_true_eq] at hwf
      simp only [Option.map_some, Option.some.injEq, encode_toNat, operandBits, Instr.opcode, asmWord, BitVec.toNat_ofNat,
        BitVec.reduceToNat]
      omega
  next => rfl

/-! ### Host steps -/

theorem wrTurns_of_lt {off v : Nat} (h : v < 2 ^ 32) : wrTurns off v = some [.write 4 off (BitVec.ofNat 32 v)] :=
  if_pos h

/-- R88: two 16-bit operands in one word, the second shifted above the first. -/
theorem pairWord_of_lt {lo hi : Nat} (hlo : lo < 2 ^ 16) (hhi : hi < 2 ^ 16) :
    pairWord lo hi = some (hi <<< 16 ||| lo) := by
  rw [pairWord, if_pos ⟨hlo, hhi⟩, ← Nat.shiftLeft_add_eq_or_of_lt hlo, Nat.shiftLeft_eq]

theorem pair_lt {lo hi : Nat} (hlo : lo < 2 ^ 16) (hhi : hi < 2 ^ 16) : hi <<< 16 ||| lo < 2 ^ 32 := by
  rw [← Nat.shiftLeft_add_eq_or_of_lt hlo, Nat.shiftLeft_eq]
  omega

end Sys2Proof.Machine

namespace Sys2Proof.Claims

open Sys2Proof Sys2Proof.Machine

/-- R85, R190: an illegal word is rejected, so the turn it gives the engine is the illegal one. -/
theorem endsIllegal_of_illegalWord {cw : Word} (h : illegalWord cw) : endsIllegal cw (BitVec.ofNat 8 cw.toNat) := by
  intro s snap ext rest hn hs
  obtain ⟨e, he⟩ := (rejectedWordsAreTheIllegalOnes cw).2 h
  rw [step_engineNext hn, engineTurn_illegal (s := { s with script := rest }) hs he, ← opcodeOf_eq_ofNat]
  rfl

/-- Settles O4: an Idle engine accepts any word written to CMD. -/
theorem illegalWordCompletesWithIllegalCmd : Obligations.IllegalWordCompletesWithIllegalCmd := fun _ _ hill =>
  ⟨fun _ hidle hs => ⟨_, _, step_cmdWrite_idle hs hidle⟩, endsIllegal_of_illegalWord hill⟩

/-- Settles O6: line by line, the word of `assemble_map_encode`. -/
theorem assembledWordsInNumbers : Obligations.AssembledWordsInNumbers := by
  refine ⟨fun v => ?_, fun l m => ?_, fun v => ?_, fun x y => ?_, fun x y => ?_, rfl, rfl, rfl, rfl, rfl⟩
  all_goals
    rw [assemble_map_encode]
    simp only [Asm.wf, asmWord, Bool.and_eq_true, decide_eq_true_eq]

/-- Settles O5, by computing the thirteen lines of the table. -/
theorem encodingExamplesOfTheSpec : Obligations.EncodingExamplesOfTheSpec := ⟨by decide, by decide⟩

/-- Settles O7: operands in range pass every check of the expansion. -/
theorem hostPseudoInstructionsExpand : Obligations.HostPseudoInstructionsExpand := by
  refine ⟨fun r g b hr hg hb => ?_, fun a v ha hv => ?_, fun w h hw hh => ?_, fun y0 y1 h0 h1 => ?_⟩
  · simp only [HostOp.turns, wrTurns_of_lt hr, wrTurns_of_lt hg, wrTurns_of_lt hb]
    rfl
  · simp only [HostOp.turns, pairWord_of_lt ha hv, wrTurns_of_lt (pair_lt ha hv), wrTurns_of_lt (v := 1) (by decide),
      Option.bind_eq_bind, Option.bind_some]
    rfl
  · simp only [HostOp.turns, pairWord_of_lt hw hh, pairWord_of_lt (lo := 0) (by decide) hh,
      wrTurns_of_lt (pair_lt hw hh), wrTurns_of_lt (pair_lt (lo := 0) (by decide) hh),
      Option.bind_eq_bind, Option.bind_some]
    rw [Nat.or_zero]
    rfl
  · simp only [HostOp.turns, pairWord_of_lt h0 h1, wrTurns_of_lt (pair_lt h0 h1), Option.bind_eq_bind, Option.bind_some]

/-- Settles O33: STATUS is the register at 0x008, and its BUSY bit says whether the engine is Idle. -/
theorem pollReadsStatusAgainWhileBusy : Obligations.PollReadsStatusAgainWhileBusy := by
  intro s rest hs
  have hstep : step s = pollTurn { s with script := rest } := step_cons hs
  refine ⟨fun hidle => ?_, fun hbusy => ?_⟩
  · rw [hstep, pollTurn, if_neg (by simp [isBusy_iff, hidle])]
    rfl
  · rw [hstep, pollTurn, if_pos (by simpa [isBusy_iff] using hbusy)]
    rfl

end Sys2Proof.Claims
end

section
/-! # Every engine turn brings a running command nearer its end (R189, R226)

From a state of the invariant the turn of a Busy engine leads on (`engineTurn_leadsOn`), and each move of `Move` makes `turnsLeft`
smaller (`Move.turnsLeft_lt`). A poll that finds the engine Busy is followed by such a turn, so polling ends. -/

namespace Sys2Proof.Machine

/-! ### The engine leads on -/

/-- The answer is a next state. -/
def LeadsOn (r : Result) : Prop := ∃ t, r = .next t

theorem leadsOn_next (t : State) : LeadsOn (.next t) := ⟨t, rfl⟩

theorem leadsOn_ite {P : Prop} [Decidable P] {a b : Result} (ha : LeadsOn a) (hb : LeadsOn b) :
    LeadsOn (if P then a else b) := by
  split <;> assumption

section
variable {s : State} {cw : Word} {snap : OperandRegs} {ext : ExtSource}

theorem txStart_leadsOn (entries : List TxEntry) : LeadsOn (txStart entries cw snap ext s) := by
  obtain ⟨f, -, h⟩ | ⟨-, h⟩ | ⟨-, -, h⟩ := txStart_cases entries cw snap ext s
  all_goals exact ⟨_, h⟩

theorem streamStart_leadsOn : LeadsOn (streamStart cw snap ext s) := by
  obtain ⟨-, h⟩ | ⟨-, -, h⟩ | ⟨-, -, -, h⟩ | ⟨-, -, -, -, h⟩ := streamStart_cases cw snap ext s
  all_goals exact ⟨_, h⟩

/-- R47: every command has a step in the Start phase. -/
theorem exec_start_leadsOn (hs : s.engine = .busy cw snap ext .start) (i : Instr) : LeadsOn (exec i s) := by
  cases i with
  | nop | logClear | unpack | rescale | route => exact ⟨_, atStart_start hs _⟩
  | pack =>
    rw [exec, execPack, atStart_start hs]
    exact leadsOn_ite (leadsOn_next _) (leadsOn_next _)
  | pixel =>
    rw [exec, execPixel, atStart_start hs]
    exact leadsOn_ite (leadsOn_next _) (leadsOn_next _)
  | stream =>
    rw [exec, execStream_start hs]
    exact streamStart_leadsOn
  | seqList =>
    rw [exec, execSeqList, hs]
    exact leadsOn_ite (leadsOn_next _) (txStart_leadsOn _)
  | seqTp =>
    rw [exec, execSeqTp, hs]
    exact txStart_leadsOn _

theorem streamEmitStep_leadsOn {x y : Nat} (h : (pixval snap ext x y).toNat ≤ 1023) :
    LeadsOn (streamEmitStep cw snap ext x y s) := by
  rw [streamEmitStep_inRange h]
  exact leadsOn_ite (leadsOn_next _) (leadsOn_next _)

/-- R145: at a valid index of a validated list a byte can be written. -/
theorem txWrite_leadsOn {entries : List TxEntry} {i : Nat} (hi : i < entries.length) (hgood : EntriesOk entries)
    (half : Half) : LeadsOn (txWrite entries cw snap ext i half s) := by
  obtain ⟨-, hval⟩ := hgood _ (List.getElem_mem hi)
  have hr : ¬ outOfRange entries[i].value = true := by rw [outOfRange_iff]; omega
  unfold txWrite
  rw [List.getElem?_eq_getElem hi]
  simp only [if_neg hr]
  cases busOutcome s <;> exact leadsOn_next _

theorem txSettle_leadsOn {entries : List TxEntry} {i : Nat} (hi : i < entries.length) :
    LeadsOn (txSettle entries cw snap ext i s) := by
  rw [txSettle, if_neg (by omega)]
  exact leadsOn_ite (leadsOn_next _) (leadsOn_next _)

/-- R142: in the middle of a transaction the engine's turn is the step of its list. -/
theorem engineTurn_of_txList {entries : List TxEntry} (hl : txList cw snap = some entries) :
    (∀ i half, s.engine = .busy cw snap ext (.seqWrite i half) → engineTurn s = txWrite entries cw snap ext i half s) ∧
    (∀ i, s.engine = .busy cw snap ext (.seqSettle i) → engineTurn s = txSettle entries cw snap ext i s) := by
  unfold txList at hl
  split at hl <;> cases hl
  next hd =>
    refine ⟨fun i half hs => ?_, fun i hs => ?_⟩
    all_goals rw [engineTurn_busy hs hd, exec, execSeqList, hs]
  next hd =>
    refine ⟨fun i half hs => ?_, fun i hs => ?_⟩
    all_goals rw [engineTurn_busy hs hd, exec, execSeqTp, hs]

end

/-- R189: in a phase whose conditions hold the engine's turn leads on. -/
theorem engineTurn_leadsOn {s : State} (h : EngineOk s) : LeadsOn (engineTurn s) := by
  cases hs : s.engine with
  | idle => exact ⟨s, engineTurn_idle hs⟩
  | busy cw snap ext ph =>
    cases ph with
    | start =>
      cases hd : decode cw with
      | ok i =>
        rw [engineTurn_busy hs hd]
        exact exec_start_leadsOn hs i
      | error e => exact ⟨_, engineTurn_illegal hs hd⟩
    | seqWrite i half =>
      obtain ⟨-, entries, hl, hi, -, hgood⟩ := (engineOk_seqWrite hs).1 h
      rw [(engineTurn_of_txList hl).1 i half hs]
      exact txWrite_leadsOn hi hgood half
    | seqSettle i =>
      obtain ⟨-, entries, hl, hi, -, -⟩ := (engineOk_seqSettle hs).1 h
      rw [(engineTurn_of_txList hl).2 i hs]
      exact txSettle_leadsOn hi
    | streamEmit x y =>
      obtain ⟨-, hd, ⟨-, -, -, hvals⟩, hx, h0, h1, -⟩ := (engineOk_streamEmit hs).1 h
      rw [engineTurn_busy hs hd, exec, execStream_streamEmit hs]
      exact streamEmitStep_leadsOn (hvals x y hx h0 h1)

/-! ### The turns a command may still take -/

section
variable {s : State} {cw : Word} {snap : OperandRegs} {ext : ExtSource}

theorem turnsLeft_idle (hs : s.engine = .idle) : turnsLeft s = 0 := by
  unfold turnsLeft; rw [hs]

theorem turnsLeft_start_pos (hs : s.engine = .busy cw snap ext .start) : 0 < turnsLeft s := by
  unfold turnsLeft
  rw [hs]
  dsimp only
  split <;> omega

theorem turnsLeft_start_stream (hs : s.engine = .busy cw snap ext .start) (hd : decode cw = .ok .stream) :
    turnsLeft s = snap.frameW.toNat * (snap.rowY1.toNat - snap.rowY0.toNat) + 1 := by
  unfold turnsLeft
  rw [hs]
  simp only [hd]

theorem turnsLeft_start_tx {entries : List TxEntry} (hs : s.engine = .busy cw snap ext .start)
    (hl : txList cw snap = some entries) : turnsLeft s = 3 * entries.length + 1 := by
  unfold turnsLeft
  rw [hs]
  unfold txList at hl
  split at hl <;> cases hl
  next hd => simp only [hd]
  next hd =>
    simp only [hd]
    rfl

section
variable {entries : List TxEntry} {i : Nat} (hl : txList cw snap = some entries)
include hl

theorem turnsLeft_seqWrite_lo (hs : s.engine = .busy cw snap ext (.seqWrite i .lo)) :
    turnsLeft s = 3 * (entries.length - i) := by
  unfold turnsLeft
  rw [hs]
  simp only [hl, Option.getD_some]

theorem turnsLeft_seqWrite_hi (hs : s.engine = .busy cw snap ext (.seqWrite i .hi)) :
    turnsLeft s = 3 * (entries.length - i) - 1 := by
  unfold turnsLeft
  rw [hs]
  simp only [hl, Option.getD_some]

theorem turnsLeft_seqSettle (hs : s.engine = .busy cw snap ext (.seqSettle i)) :
    turnsLeft s = 3 * (entries.length - i) - 2 := by
  unfold turnsLeft
  rw [hs]
  simp only [hl, Option.getD_some]

end

theorem turnsLeft_streamEmit {x y : Nat} (hs : s.engine = .busy cw snap ext (.streamEmit x y)) :
    turnsLeft s = snap.frameW.toNat * (snap.rowY1.toNat - y) - x := by
  unfold turnsLeft; rw [hs]

end

/-- R128: behind a pixel of the range fewer pixels are left. -/
theorem nextPixel_left_lt {w x y y1 : Nat} (hx : x < w) (hy : y < y1) :
    w * (y1 - (nextPixel w x y).2) - (nextPixel w x y).1 < w * (y1 - y) - x := by
  have hrow : w * (y1 - y) = w * (y1 - (y + 1)) + w := by
    rw [← Nat.mul_add_one]
    congr 1
    omega
  unfold nextPixel
  split <;> dsimp only <;> omega

/-- R189: each move, in a phase whose conditions hold, leaves fewer turns. -/
theorem Move.turnsLeft_lt {s t : State} {cw : Word} {snap : OperandRegs} {ext : ExtSource} {ph : Phase}
    (m : Move s cw snap ext ph t) (hs : s.engine = .busy cw snap ext ph) (h : EngineOk s) : turnsLeft t < turnsLeft s := by
  cases m with
  | quiet | logClear | dout | streamEmpty =>
    rw [turnsLeft_idle (finish_engine ..)]
    exact turnsLeft_start_pos hs
  | streamEnter hd =>
    rw [turnsLeft_start_stream hs hd, turnsLeft_streamEmit (goTo_engine ..)]
    omega
  | emitLast x y =>
    obtain ⟨-, -, -, hx, -, h1, -⟩ := (engineOk_streamEmit hs).1 h
    rw [turnsLeft_idle (finish_engine ..), turnsLeft_streamEmit hs]
    exact Nat.zero_lt_of_lt (nextPixel_left_lt hx h1)
  | emitNext x y =>
    obtain ⟨-, -, -, hx, -, h1, -⟩ := (engineOk_streamEmit hs).1 h
    rw [turnsLeft_streamEmit (goTo_engine ..), turnsLeft_streamEmit hs]
    exact nextPixel_left_lt hx h1
  | txEnter entries hl =>
    rw [turnsLeft_start_tx hs hl, turnsLeft_seqWrite_lo hl (goTo_engine ..)]
    omega
  | writeOk entries e i half hl he =>
    have hi := (List.getElem?_eq_some_iff.1 he).1
    cases half with
    | lo =>
      rw [afterWrite, turnsLeft_seqWrite_lo hl hs, turnsLeft_seqWrite_hi hl (goTo_engine ..)]
      omega
    | hi =>
      rw [afterWrite, turnsLeft_seqWrite_hi hl hs, turnsLeft_seqSettle hl (goTo_engine ..)]
      omega
  | writeFail entries e i half k hl he =>
    have hi := (List.getElem?_eq_some_iff.1 he).1
    rw [turnsLeft_idle (finish_engine ..)]
    cases half with
    | lo => rw [turnsLeft_seqWrite_lo hl hs]; omega
    | hi => rw [turnsLeft_seqWrite_hi hl hs]; omega
  | settleNext entries i hl hi =>
    rw [turnsLeft_seqSettle hl hs, turnsLeft_seqWrite_lo hl (goTo_engine ..)]
    omega
  | settleLast entries i hl hi =>
    rw [turnsLeft_seqSettle hl hs, turnsLeft_idle (finish_engine ..)]
    omega

/-- R70: an engine turn does not touch the coming turns. -/
theorem Move.script {s t : State} {cw : Word} {snap : OperandRegs} {ext : ExtSource} {ph : Phase}
    (m : Move s cw snap ext ph t) : t.script = s.script := by
  cases m with
  | writeOk | writeFail => simp
  | _ => rfl

/-- R189: from a state of the invariant, the step of a Busy engine's turn leads on and leaves fewer turns. -/
theorem engineNext_progress {s : State} {rest : List Turn} (h : Invariant s) (hn : EngineNext s rest)
    (hbusy : s.engine ≠ .idle) : ∃ t, step s = .next t ∧ t.script = rest ∧ turnsLeft t < turnsLeft s := by
  obtain ⟨-, -, hok⟩ := invariant_iff.1 (invariant_script h rest)
  obtain ⟨t, ht⟩ := engineTurn_leadsOn hok
  obtain ⟨hidle, -⟩ | ⟨cw, snap, ext, ph, hs, m⟩ := engineTurn_kind ht
  · exact absurd hidle hbusy
  · exact ⟨t, by rw [step_engineNext hn, ht], m.script, m.turnsLeft_lt hs hok⟩

/-! ### Polling -/

/-- R24: an Idle engine's STATUS word has BUSY = 0. -/
theorem statusWord_idle {s : State} (h : s.engine = .idle) : (statusWord s).toNat % 2 = 0 := by
  rw [statusWord_toNat, h, show Engine.idle.isBusy.toNat = 0 from rfl]
  omega

end Sys2Proof.Machine

namespace Sys2Proof.Claims

open Sys2Proof Sys2Proof.Machine

/-- Settles O51, by induction on the engine turns left: a poll that sees BUSY = 1 is followed by an engine turn and a poll with
fewer left. -/
theorem pollingEnds : Obligations.PollingEnds := by
  intro s rest h hs
  induction hn : turnsLeft s using Nat.strong_induction_on generalizing s with
  | _ n ih =>
    obtain ⟨hlast, hagain⟩ := pollReadsStatusAgainWhileBusy s rest hs
    by_cases hidle : s.engine = .idle
    · exact ⟨1, _, memRead s 0x008, run_one (hlast hidle), rfl, hidle, List.getLast?_concat, statusWord_idle hidle⟩
    · have hpoll := hagain hidle
      have h' := stepKeepsTheInvariant s _ h hpoll
      obtain ⟨u, hturn, hu, hlt⟩ := engineNext_progress h' (.inr rfl) hidle
      obtain ⟨k, t, w, hrun, hend⟩ := ih (turnsLeft u) (hn ▸ hlt) u (stepKeepsTheInvariant _ u h' hturn) hu rfl
      exact ⟨k + 1 + 1, t, w, (run_succ hpoll _).trans ((run_succ hturn k).trans hrun), hend⟩

end Sys2Proof.Claims
end

section
/-! # The codec functions and commands (R100 to R105)

The codec functions are read as arithmetic, so that DOUT after a codec command is `doutOf` of a number. -/

namespace Sys2Proof.Machine

/-- R104: the formula's result fits a sample. -/
theorem rescale8to10_toNat (v8 : Byte) : (rescale8to10 v8).toNat = (v8.toNat * 1023 + 127) / 255 := by
  have hv := v8.isLt
  rw [rescale8to10, BitVec.toNat_ofNat]
  omega

/-- R81: a word with a command's operand bits above its opcode is that command's. -/
theorem decode_of_toNat {cw : Word} {i : Instr} (h : cw.toNat = operandBits i * 2 ^ 8 + i.opcode.toNat) :
    decode cw = .ok i :=
  decode_eq_ok_iff.2 (BitVec.eq_of_toNat_eq ((encode_toNat i).trans h.symm))

/-! ### The Start steps -/

section
variable {s : State} {cw : Word} {snap : OperandRegs} {ext : ExtSource} (hs : s.engine = .busy cw snap ext .start)
include hs

theorem exec_pack_inRange {v : Raw16} (h : v.toNat ≤ 1023) :
    exec (.pack v) s = .next (finish .ok ⟨0, 0, 0⟩ cw (writeDout 0 0 (sampleOf v) s)) := by
  rw [exec, execPack, atStart_start hs, if_neg (by rw [outOfRange_iff]; omega), complete_eq]

theorem exec_pack_outOfRange {v : Raw16} (h : 1023 < v.toNat) :
    exec (.pack v) s = .next (finish .validationRange ⟨0, 0, 0⟩ cw s) := by
  rw [exec, execPack, atStart_start hs, if_pos ((outOfRange_iff v).2 h), raise_eq]
  rfl

theorem exec_unpack (l m : Byte) :
    exec (.unpack l m) s = .next (finish .ok ⟨0, 0, 0⟩ cw (writeDout 0 0 (unpack l m) s)) := by
  rw [exec, execUnpack, atStart_start hs, complete_eq]

theorem exec_rescale (v8 : Byte) :
    exec (.rescale v8) s = .next (finish .ok ⟨0, 0, 0⟩ cw (writeDout 0 0 (rescale8to10 v8) s)) := by
  rw [exec, execRescale, atStart_start hs, complete_eq]

end

end Sys2Proof.Machine

namespace Sys2Proof.Claims

open Sys2Proof Sys2Proof.Machine

/-! ### Completions, DOUT and illegal words, in the statements' terms -/

/-- R184: LAST_OP is the opcode of the command that ends. -/
theorem finish_eq_ended {cw : Word} {i : Instr} (hd : decode cw = .ok i) (c : Cause) (e : ErrInfo) (s : State) :
    finish c e cw s = ended s c e i.opcode := by
  rw [← (opcodeOf_eq_iff cw i.opcode).2 (decode_opcode hd)]
  rfl

/-- R28, R100: the bytes DOUT shows are those of its sample as a number. -/
theorem writeDout_eq_doutOf (st ch : BitVec 2) (v : Sample10) (s : State) :
    writeDout st ch v s = { s with dout := doutOf st ch v.toNat } := by
  rw [writeDout, doutOf, ← packMsb_toNat, ← packLsb_toNat]
  simp only [BitVec.ofNat_toNat, BitVec.setWidth_eq]

/-- R28, R184: a command that writes DOUT and completes with OK. -/
theorem finish_writeDout_eq_ended {cw : Word} {i : Instr} (hd : decode cw = .ok i) (st ch : BitVec 2) (v : Sample10)
    (s : State) :
    finish .ok ⟨0, 0, 0⟩ cw (writeDout st ch v s) =
      { ended s .ok ⟨0, 0, 0⟩ i.opcode with dout := doutOf st ch v.toNat } := by
  rw [finish_eq_ended hd, writeDout_eq_doutOf]
  rfl

/-- R102: the bytes of an unpacked sample: the lsb byte itself, and bits 1:0 of the msb byte. -/
theorem doutOf_unpacked (st ch : BitVec 2) (l m : Byte) :
    doutOf st ch (m.toNat % 4 * 256 + l.toNat) =
      ⟨st, ch, BitVec.ofNat 10 (m.toNat % 4 * 256 + l.toNat), BitVec.ofNat 8 (m.toNat % 4), l⟩ := by
  have hl := l.isLt
  have hmsb : (m.toNat % 4 * 256 + l.toNat) / 256 = m.toNat % 4 := by omega
  have hlsb : (m.toNat % 4 * 256 + l.toNat) % 256 = l.toNat := by omega
  rw [doutOf, hmsb, hlsb, BitVec.ofNat_toNat, BitVec.setWidth_eq]

/-- R81, R85: a word with a command's opcode and a reserved bit of its format set ends with ILLEGAL_CMD. -/
theorem endsIllegal_of_reservedBitSet {cw : Word} {i : Instr} (hop : cw.toNat % 256 = i.opcode.toNat)
    (hbit : reservedBitSet cw i) : endsIllegal cw i.opcode := by
  rw [← (opcodeOf_eq_iff cw i.opcode).2 hop, opcodeOf_eq_ofNat]
  exact endsIllegal_of_illegalWord ((illegalWord_iff_of_opcode hop).2 hbit)

/-! ### The codec functions -/

/-- Settles O16: both laws, read as arithmetic on the two bytes. -/
theorem packAndUnpackAreInverse : Obligations.PackAndUnpackAreInverse := by
  refine ⟨unpack_toNat, fun v => ?_, fun l m => ⟨?_, ?_⟩⟩
  · apply BitVec.eq_of_toNat_eq
    have hv := v.isLt
    rw [unpack_toNat, packLsb_toNat, packMsb_toNat]
    omega
  · apply BitVec.eq_of_toNat_eq
    have hl := l.isLt
    rw [packLsb_toNat, unpack_toNat]
    omega
  · have hl := l.isLt
    rw [packMsb_toNat, unpack_toNat]
    omega

/-- Settles O17: a step of 1 in the 8-bit value adds 1023 to the numerator, more than the divisor 255; and 255 times the
result is within 127 of v * 1023. -/
theorem rescaleIsMonotoneAndNearest : Obligations.RescaleIsMonotoneAndNearest := by
  refine ⟨fun a b hab => ?_, by decide, by decide, by decide, rescale8to10_toNat, fun v => ?_⟩
  · rw [BitVec.lt_def] at hab ⊢
    rw [rescale8to10_toNat, rescale8to10_toNat]
    omega
  · rw [rescale8to10_toNat]
    omega

/-! ### The codec commands -/

/-- Settles O13: a value of at most 1023 is its own sample. -/
theorem packResult : Obligations.PackResult := by
  refine ⟨fun s cw v snap ext hcw hs => ?_, fun _ hop hbits =>
    endsIllegal_of_reservedBitSet (i := .pack 0) hop hbits⟩
  have hd : decode cw = .ok (.pack v) := decode_of_toNat (by
    simp only [hcw, operandBits, Instr.opcode, BitVec.reduceToNat]
    omega)
  refine ⟨hd, fun hv => ?_, fun hv => ?_⟩
  · rw [exec_pack_inRange hs hv, finish_writeDout_eq_ended hd, sampleOf_toNat v hv]
    rfl
  · rw [exec_pack_outOfRange hs hv, finish_eq_ended hd]
    rfl

/-- Settles O14: DOUT shows the bytes of the unpacked sample. -/
theorem unpackResult : Obligations.UnpackResult := by
  refine ⟨fun s cw l m snap ext hcw hs => ?_, fun _ hop hbits =>
    endsIllegal_of_reservedBitSet (i := .unpack 0 0) hop hbits⟩
  have hd : decode cw = .ok (.unpack l m) := decode_of_toNat (by
    simp only [hcw, operandBits, Instr.opcode, BitVec.reduceToNat]
    omega)
  refine ⟨hd, ?_⟩
  rw [exec_unpack hs, finish_writeDout_eq_ended hd, unpack_toNat, doutOf_unpacked]
  rfl

/-- Settles O15, by the formula of `rescale8to10_toNat`. -/
theorem rescaleResult : Obligations.RescaleResult := by
  refine ⟨fun s cw v8 snap ext hcw hs => ?_, fun _ hop hbits =>
    endsIllegal_of_reservedBitSet (i := .rescale 0) hop hbits⟩
  have hd : decode cw = .ok (.rescale v8) := decode_of_toNat (by
    simp only [hcw, operandBits, Instr.opcode, BitVec.reduceToNat]
    omega)
  refine ⟨hd, ?_⟩
  rw [exec_rescale hs, finish_writeDout_eq_ended hd, rescale8to10_toNat]
  rfl

end Sys2Proof.Claims
end

section
/-! # No step faults (R100, R189, R225)

An engine's turn leads on from a state of the invariant (`engineTurn_leadsOn`); a turn of another agent is a next state or a
refused host access. -/

namespace Sys2Proof.Machine

theorem LeadsOn.noFault {r : Result} (h : LeadsOn r) : NoFault r := by
  obtain ⟨t, rfl⟩ := h
  exact fun _ => nofun

/-- R64: an access that is not admitted is refused, which is no fault. -/
theorem noFault_admitted (width off : Nat) (t : State) :
    NoFault (if admitted width off then .next t else .refused .hostAccess) := by
  split <;> exact fun _ => nofun

theorem engineTurn_leadsOn_of_invariant {s : State} (h : Invariant s) : LeadsOn (engineTurn s) := by
  obtain ⟨-, -, hok⟩ := invariant_iff.1 h
  exact engineTurn_leadsOn hok

/-- R189, R225: from a state of the invariant, the step of the engine's turn leads on. -/
theorem step_engineNext_leadsOn {s : State} {rest : List Turn} (h : Invariant s) (hn : EngineNext s rest) :
    LeadsOn (step s) := by
  rw [step_engineNext hn]
  exact engineTurn_leadsOn_of_invariant (invariant_script h rest)

/-- R13, R191: no agent's turn faults. -/
theorem takeTurn_noFault {s : State} (h : Invariant s) (turn : Turn) : NoFault (takeTurn turn s) := by
  cases turn with
  | engine => exact (engineTurn_leadsOn_of_invariant h).noFault
  | read | write => exact noFault_admitted _ _ _
  | poll | source | reset => exact (leadsOn_next _).noFault

end Sys2Proof.Machine

namespace Sys2Proof.Claims

open Sys2Proof Sys2Proof.Machine

/-- Settles O48: with an empty script the turn is the engine's, and else it is the script's first. -/
theorem engineIsNeverStuck : Obligations.EngineIsNeverStuck := by
  intro s h
  have hnil (hs : s.script = []) : LeadsOn (step s) := step_engineNext_leadsOn h (.inl ⟨hs, rfl⟩)
  refine ⟨?_, hnil, fun _ hs => step_engineNext_leadsOn h (.inr hs)⟩
  cases hs : s.script with
  | nil => exact (hnil hs).noFault
  | cons turn rest =>
    rw [step_cons hs]
    exact takeTurn_noFault (invariant_script h rest) turn

end Sys2Proof.Claims
end

section
/-! # The Bayer router commands (R120 to R131)

ROUTE and PIXEL are one-step commands that write DOUT from the parities of a pixel's row and column. STREAM's steps are
`streamStart` and `streamEmitStep`, and the bytes of a whole STREAM are `frameBytes` of its rows (`streamEmitsItsWholeRange`);
so R130 and R131 are laws of `frameBytes`: it splits at a row, and its bytes 2i and 2i + 1 are those of pixel i. -/

namespace Sys2Proof.Machine

/-! ### The steps of ROUTE, PIXEL and STREAM -/

section
variable {s : State} {cw : Word} {snap : OperandRegs} {ext : ExtSource}

theorem exec_route (hs : s.engine = .busy cw snap ext .start) (x y : Coord12) :
    exec (.route x y) s =
      .next (finish .ok ⟨0, 0, 0⟩ cw (writeDout (site x.toNat y.toNat) (chan x.toNat y.toNat).code 0 s)) := by
  rw [exec, execRoute, atStart_start hs, complete_eq]

theorem exec_pixel_inRange (hs : s.engine = .busy cw snap ext .start) {x y : Coord12}
    (h : (pixval snap ext x.toNat y.toNat).toNat ≤ 1023) :
    exec (.pixel x y) s = .next (finish .ok ⟨0, 0, 0⟩ cw (writeDout (site x.toNat y.toNat) (chan x.toNat y.toNat).code
      (sampleOf (pixval snap ext x.toNat y.toNat)) s)) := by
  rw [exec, execPixel, atStart_start hs, if_neg (by rw [outOfRange_iff]; omega), complete_eq]

theorem exec_pixel_outOfRange (hs : s.engine = .busy cw snap ext .start) {x y : Coord12}
    (h : 1023 < (pixval snap ext x.toNat y.toNat).toNat) :
    exec (.pixel x y) s = .next (finish .validationRange ⟨0, 0, 0⟩ cw s) := by
  rw [exec, execPixel, atStart_start hs, if_pos ((outOfRange_iff _).2 h), raise_eq]
  rfl

theorem streamStart_dimBad (hd : streamDimBad s.params.maxDim snap = true) :
    streamStart cw snap ext s = .next (finish .validationDim ⟨0, 0, 0⟩ cw s) :=
  if_pos hd

theorem streamStart_valueBad (hd : streamDimBad s.params.maxDim snap = false) (hv : streamValueBad snap ext = true) :
    streamStart cw snap ext s = .next (finish .validationRange ⟨0, 0, 0⟩ cw s) := by
  rw [streamStart, hd, hv]
  rfl

end

end Sys2Proof.Machine

namespace Sys2Proof.Claims

open Sys2Proof Sys2Proof.Machine

/-! ### Channels, sites and the checks of STREAM, in the statements' terms -/

/-- R120: the channel by the parities of row and column. -/
theorem chan_code (x y : Nat) : (chan x y).code = chanCode x y := by
  unfold chan chanCode
  split_ifs <;> rfl

/-- R120: the site code is 2 * y[0] + x[0]. -/
theorem site_eq_siteCode (x y : Nat) : site x y = siteCode x y := by
  apply BitVec.eq_of_toNat_eq
  simp only [site, siteCode, append_toNat_mul, BitVec.toNat_ofNat]
  omega

theorem streamDimBad_eq_true {maxDim : Nat} {snap : OperandRegs} (h : dimBad maxDim snap) :
    streamDimBad maxDim snap = true :=
  (streamDimBad_iff maxDim snap).2 h

theorem streamValueBad_eq_true {snap : OperandRegs} {ext : ExtSource} (h : valueBad snap ext) :
    streamValueBad snap ext = true := by
  rw [streamValueBad_iff]
  simpa only [valueBad, pixval_toNat] using h

/-- R127: POS = (0, Y0) and PIX_COUNT = 0, the snapshot's Y0 as the register holds it. -/
theorem setPos_rowY0 (s : State) (snap : OperandRegs) :
    { setPos 0 snap.rowY0.toNat s with pixCount := 0 } = { s with posX := 0, posY := snap.rowY0, pixCount := 0 } := by
  simp only [setPos, BitVec.ofNat_toNat, BitVec.setWidth_eq, BitVec.ofNat_eq_ofNat]

/-- R128: what emitting a pixel in range does, in the statement's terms. -/
theorem emitPixel_eq {v : Raw16} (h : v.toNat ≤ 1023) (next : Nat × Nat) (s : State) :
    emitPixel v next s =
      { s with pixOut := s.pixOut ++ sampleBytes v.toNat, pixCount := s.pixCount + 1,
               posX := BitVec.ofNat 16 next.1, posY := BitVec.ofNat 16 next.2 } := by
  simp [emitPixel, emit, setPos, ← packed_eq_sampleBytes h]

/-! ### ROUTE, PIXEL and the steps of STREAM -/

/-- Settles O18: DOUT with sample 0 has bytes 0. -/
theorem routeResult : Obligations.RouteResult := by
  intro s cw x y snap ext hcw hs
  have hd : decode cw = .ok (.route x y) := decode_of_toNat (by
    simp only [hcw, operandBits, Instr.opcode, BitVec.reduceToNat]
    omega)
  refine ⟨hd, ?_⟩
  rw [exec_route hs, finish_writeDout_eq_ended hd, site_eq_siteCode, chan_code]
  rfl

/-- Settles O19: a pixel value of at most 1023 is its own sample. -/
theorem pixelResult : Obligations.PixelResult := by
  intro s cw x y snap ext hcw hs
  have hd : decode cw = .ok (.pixel x y) := decode_of_toNat (by
    simp only [hcw, operandBits, Instr.opcode, BitVec.reduceToNat]
    omega)
  simp only [← pixval_toNat]
  refine ⟨hd, fun hv => ?_, fun hv => ?_⟩
  · rw [exec_pixel_inRange hs hv, finish_writeDout_eq_ended hd, sampleOf_toNat _ hv, site_eq_siteCode, chan_code]
    rfl
  · rw [exec_pixel_outOfRange hs hv, finish_eq_ended hd]
    rfl

/-- Settles O20, check by check in R127's order. -/
theorem streamValidatesBeforeEmitting : Obligations.StreamValidatesBeforeEmitting := by
  refine ⟨fun _ hop hbits => endsIllegal_of_reservedBitSet (i := .stream) hop hbits, fun s snap ext hs => ?_⟩
  rw [exec, execStream_start hs]
  refine ⟨by decide, fun hd => ?_, fun hd hv => ?_, fun hd hv hempty => ?_, fun hd hv hw hy => ?_⟩
  · rw [streamStart_dimBad (streamDimBad_eq_true hd)]
    rfl
  · rw [streamStart_valueBad (streamDimBad_eq_false hd) (streamValueBad_eq_true hv)]
    rfl
  · rw [streamStart_valid (streamDimBad_eq_false hd) (streamValueBad_eq_false hv), if_pos hempty, setPos_rowY0]
    rfl
  · rw [streamStart_valid (streamDimBad_eq_false hd) (streamValueBad_eq_false hv), if_neg (not_or.2 ⟨hw, hy⟩), setPos_rowY0]
    rfl

/-- Settles O21: the pixel is emitted, and `nextPixel` says whether it was the last. -/
theorem streamEmitsOnePixelAStep : Obligations.StreamEmitsOnePixelAStep := by
  intro s snap ext x y x' y' hs hval hnext
  have hnext' : nextPixel snap.frameW.toNat x y = (x', y') := hnext.symm
  rw [← pixval_toNat] at hval ⊢
  refine ⟨_, rfl, ?_⟩
  rw [exec, execStream_streamEmit hs, streamEmitStep_inRange hval, hnext', emitPixel_eq hval]
  refine ⟨fun hlast => ?_, fun hmore => ?_⟩
  · rw [if_pos hlast]
    rfl
  · rw [if_neg hmore]
    rfl

/-! ### Whole streams -/

/-- R129: a validated STREAM, left to run, ends with cause 0 behind the bytes of its rows. -/
theorem stream_emits_frameBytes {s : State} {snap : OperandRegs} {ext : ExtSource} (hs : s.script = [])
    (he : s.engine = .busy 0x22 snap ext .start) (hd : ¬ dimBad s.params.maxDim snap) (hv : ¬ valueBad snap ext) :
    ∃ n t, runsTo n s t ∧ t.engine = .idle ∧ t.cause = .ok ∧
      t.pixOut = s.pixOut ++ frameBytes snap.frameW.toNat snap.rowY0.toNat snap.rowY1.toNat (pixelRaw snap ext) :=
  ⟨_, _, streamEmitsItsWholeRange s snap ext hs he hd hv, rfl, rfl, rfl⟩

/-- R127: the dimension checks hold of every part of the rows. -/
theorem not_dimBad_of_subrange {maxDim : Nat} {snap : OperandRegs} {y0 y1 : BitVec 16} (h01 : y0 ≤ y1)
    (h1 : y1 ≤ snap.rowY1) (h : ¬ dimBad maxDim snap) : ¬ dimBad maxDim { snap with rowY0 := y0, rowY1 := y1 } := by
  rw [BitVec.le_def] at h01 h1
  simp only [dimBad] at h ⊢
  omega

/-- R127: the value checks of part of the rows ask for no other values. -/
theorem not_valueBad_of_subrange {snap : OperandRegs} {ext : ExtSource} {y0 y1 : BitVec 16} (h0 : snap.rowY0 ≤ y0)
    (h1 : y1 ≤ snap.rowY1) (h : ¬ valueBad snap ext) : ¬ valueBad { snap with rowY0 := y0, rowY1 := y1 } ext := by
  refine fun hbad => h (hbad.imp_right ?_)
  rintro ⟨hsrc, x, y, hx, hy0, hy1, hv⟩
  exact ⟨hsrc, x, y, hx, (BitVec.le_def.1 h0).trans hy0, hy1.trans_le (BitVec.le_def.1 h1), hv⟩

/-- R130: the bytes of a frame's rows split at every row. -/
theorem frameBytes_split (w : Nat) {y0 k y1 : Nat} (h0 : y0 ≤ k) (h1 : k ≤ y1) (value : Nat → Nat → Nat) :
    frameBytes w y0 y1 value = frameBytes w y0 k value ++ frameBytes w k y1 value := by
  have hsize : w * (y1 - y0) = w * (k - y0) + w * (y1 - k) := by
    rw [← Nat.mul_add]
    congr 1
    omega
  rw [frameBytes, hsize, List.range_add, List.flatMap_append, List.flatMap_map]
  refine congrArg _ (List.flatMap_congr fun i hi => ?_)
  have hw : 0 < w := Nat.pos_of_mul_pos_right (Nat.zero_lt_of_lt (List.mem_range.1 hi))
  have hrow : y0 + (k - y0 + i / w) = k + i / w := by omega
  rw [Nat.mul_add_mod, Nat.mul_add_div hw, hrow]

/-- Settles O23: each part passes validation because the whole does, and the bytes split at row k. -/
theorem streamsOfRowRangesConcatenate : Obligations.StreamsOfRowRangesConcatenate := by
  intro s s1 s2 snap ext k h0 h1 hs hs1 hs2 hp1 hp2 he he1 he2 hd hv
  obtain ⟨n, t, hrun, hidle, hok, hout⟩ := stream_emits_frameBytes hs he hd hv
  obtain ⟨n1, t1, hrun1, hidle1, hok1, hout1⟩ := stream_emits_frameBytes hs1 he1
    (hp1 ▸ not_dimBad_of_subrange h0 h1 hd) (not_valueBad_of_subrange (BitVec.le_refl _) h1 hv)
  obtain ⟨n2, t2, hrun2, hidle2, hok2, hout2⟩ := stream_emits_frameBytes hs2 he2
    (hp2 ▸ not_dimBad_of_subrange h1 (BitVec.le_refl _) hd) (not_valueBad_of_subrange h0 (BitVec.le_refl _) hv)
  rw [frameBytes_split _ h0 h1] at hout
  exact ⟨n, t, n1, t1, n2, t2, _, _, hrun, hrun1, hrun2, hidle, hidle1, hidle2, hok, hok1, hok2, hout1, hout2, hout⟩

/-! ### The raw file -/

/-- R61: two bytes a sample. -/
theorem length_flatMap_sampleBytes (f : Nat → Nat) (n : Nat) :
    ((List.range n).flatMap fun i => sampleBytes (f i)).length = 2 * n := by
  simp [sampleBytes, Nat.mul_comm]

/-- R61: sample `i` stands at bytes 2i and 2i + 1, low byte first. -/
theorem flatMap_sampleBytes_getElem? (f : Nat → Nat) {n i : Nat} (hi : i < n) (k : Nat) (hk : k < 2) :
    ((List.range n).flatMap fun j => sampleBytes (f j))[2 * i + k]? = (sampleBytes (f i))[k]? := by
  induction n with
  | zero => omega
  | succ n ih =>
    rw [List.range_succ, List.flatMap_append, List.flatMap_singleton]
    have hlen := length_flatMap_sampleBytes f n
    obtain hlt | rfl := Nat.lt_succ_iff_lt_or_eq.1 hi
    · rw [List.getElem?_append_left (by omega), ih hlt]
    · rw [List.getElem?_append_right (by omega), hlen, Nat.add_sub_cancel_left]

/-- R102: the bytes of a sample unpack to it, and the high byte's six high bits are zero. -/
theorem unpack_sampleBytes {v : Nat} (h : v ≤ 1023) :
    (unpack (BitVec.ofNat 8 (v % 256)) (BitVec.ofNat 8 (v / 256))).toNat = v ∧ (BitVec.ofNat 8 (v / 256)).toNat < 4 := by
  simp only [unpack_toNat, BitVec.toNat_ofNat]
  omega

/-- Settles O24: byte pair i of the rows [0, H) is pixel i, which validation has found to be a sample. -/
theorem fullFrameStreamIsTheRawFile : Obligations.FullFrameStreamIsTheRawFile := by
  intro s snap ext hs he h0 h1 hd hv
  obtain ⟨n, t, hrun, hidle, hok, hout⟩ := stream_emits_frameBytes hs he hd hv
  refine ⟨n, t, _, hrun, hidle, hok, hout, ?_, fun i hi => ?_⟩
  · rw [h0, h1]
    exact length_flatMap_sampleBytes _ _
  · have hi' : i < rangeSize snap := by rwa [rangeSize, h0, h1]
    have hsample := pixval_pixelAt_le (streamValueBad_eq_false hv) hi'
    have hrow : (pixelAt snap i).2 = i / snap.frameW.toNat := by simp [pixelAt, h0]
    rw [pixval_toNat, hrow] at hsample
    have hbyte := flatMap_sampleBytes_getElem? (fun j => pixelRaw snap ext (pixelAt snap j).1 (pixelAt snap j).2) hi'
    rw [hrow] at hbyte
    exact ⟨_, _, hbyte 0 (by decide), hbyte 1 (by decide), unpack_sampleBytes hsample⟩

end Sys2Proof.Claims
end

section
/-! # The sequencer commands (R143 to R156)

SEQ_LIST and SEQ_TP run one transaction procedure over their lists; `seqInstr tp`, `seqWord tp` and `seqEntries tp` are the
command, its word and its list, so each step is said once for both. The Start step is decided by what validation finds first; a
SeqWrite step is one byte write (`written`) and the change of phase that the bus's answer gives. -/

namespace Sys2Proof.Machine

/-! ### The steps of a transaction, forwards (R143 to R145, R149) -/

/-- R143: for an entry at another address than 0xFFFF only the range check is left. -/
theorem validateFrom_cons_of_addr_ne {a : RegAddr} (h : a ≠ 0xFFFF#16) (i : Nat) (v : Raw16) (rest : List TxEntry) :
    validateFrom i (⟨a, v⟩ :: rest) =
      if 1023 < v.toNat then some ⟨.validationRange, 0, i⟩ else validateFrom (i + 1) rest := by
  simp only [validateFrom, if_neg h, outOfRange_iff]

/-- R147: the answer that waits is the outcome of the next write (log 4). -/
theorem busOutcome_of_head {s : State} {r : BusOutcome} (h : s.busAnswers.head? = some r) : busOutcome s = r := by
  unfold busOutcome
  split
  next hcons => simpa [hcons] using h
  next hnil => simp [hnil] at h

section
variable {entries : List TxEntry} {cw : Word} {snap : OperandRegs} {ext : ExtSource} {s : State}

theorem txStart_failure {f : Failure} (h : validateFrom 0 entries = some f) :
    txStart entries cw snap ext s = .next (finish f.cause ⟨f.addr, 0, BitVec.ofNat 8 f.index⟩ cw s) := by
  simp only [txStart, h, raise_eq]

theorem txStart_nil : txStart [] cw snap ext s = .next (finish .ok ⟨0, 0, 0⟩ cw s) := rfl

theorem txStart_good (h : EntriesOk entries) (hne : entries ≠ []) :
    txStart entries cw snap ext s = .next (goTo cw snap ext (.seqWrite 0 .lo) s) := by
  cases entries with
  | nil => exact absurd rfl hne
  | cons => simp only [txStart, validateFrom_eq_none.2 h]

section
variable {e : TxEntry} {i : Nat} {half : Half} (he : entries[i]? = some e) (hv : e.value.toNat ≤ 1023)
include he hv

theorem txWrite_ok (hb : busOutcome s = .ok) :
    txWrite entries cw snap ext i half s =
      .next (goTo cw snap ext (afterWrite i half) (writeAndLog snap.devAddr (txReg e half) (txByte e half) s)) := by
  have hr : ¬ outOfRange e.value = true := by rw [outOfRange_iff]; omega
  simp only [txWrite, he, if_neg hr, hb]

theorem txWrite_fail {k : Fin 15} (hb : busOutcome s = .fail k) :
    txWrite entries cw snap ext i half s =
      .next (finish .busError ⟨txReg e half, transportCode (.fail k), BitVec.ofNat 8 i⟩ cw
        (writeAndLog snap.devAddr (txReg e half) (txByte e half) s)) := by
  have hr : ¬ outOfRange e.value = true := by rw [outOfRange_iff]; omega
  simp only [txWrite, he, if_neg hr, hb, raise_eq]

end

theorem txSettle_of_lt {i : Nat} (hi : i < entries.length) :
    txSettle entries cw snap ext i s =
      .next (if i + 1 < entries.length then goTo cw snap ext (.seqWrite (i + 1) .lo) (settle snap.settleMs s)
        else finish .ok ⟨0, 0, 0⟩ cw (settle snap.settleMs s)) := by
  rw [txSettle, if_neg (by omega), complete_eq, apply_ite Host.Outcome.next]

end

end Sys2Proof.Machine

namespace Sys2Proof.Claims

open Sys2Proof Sys2Proof.Machine

/-! ### The two commands, in the statements' terms -/

theorem decode_seqWord (tp : Bool) : decode (seqWord tp) = .ok (seqInstr tp) := by
  cases tp <;> decide

/-- R142, R153, R155: the list of a sequencer command. -/
theorem txList_seqWord (tp : Bool) (snap : OperandRegs) : txList (seqWord tp) snap = some (seqEntries tp snap) := by
  unfold txList
  rw [decode_seqWord]
  cases tp <;> rfl

/-- R184: LAST_OP of a sequencer command. -/
theorem finish_seqWord (tp : Bool) (c : Cause) (e : ErrInfo) (s : State) :
    finish c e (seqWord tp) s = ended s c e (if tp then 0x31 else 0x30) := by
  rw [finish_eq_ended (decode_seqWord tp)]
  cases tp <;> rfl

/-! ### The log and a byte write -/

/-- R150: one entry appended. -/
theorem logAppend_eq_logged (e : LogEntry) (s : State) : logAppend e s = logged s [e] := by
  unfold logAppend logged
  split
  next hroom =>
    have hfit : ¬ s.params.logDepth < s.log.length + [e].length := by rw [List.length_singleton]; omega
    rw [List.take_of_length_le (by rw [List.length_singleton]; omega), decide_eq_false hfit, Bool.or_false]
  next hfull =>
    have hlost : s.params.logDepth < s.log.length + [e].length := by rw [List.length_singleton]; omega
    rw [Nat.sub_eq_zero_of_le (by omega), List.take_zero, List.append_nil, decide_eq_true hlost, Bool.or_true]

theorem logged_nil {s : State} (h : s.log.length ≤ s.params.logDepth) : logged s [] = s := by
  have hfit : ¬ s.params.logDepth < s.log.length + ([] : List LogEntry).length := by rw [List.length_nil]; omega
  rw [logged, List.take_nil, List.append_nil, decide_eq_false hfit, Bool.or_false]

/-- R150: entries appended in two parts. -/
theorem logged_logged (s : State) (es es' : List LogEntry) : logged (logged s es) es' = logged s (es ++ es') := by
  have hovf : (s.params.logDepth < s.log.length + es.length ∨
      s.params.logDepth < s.log.length + min (s.params.logDepth - s.log.length) es.length + es'.length) ↔
      s.params.logDepth < s.log.length + (es.length + es'.length) := by omega
  have htake : s.params.logDepth - (s.log.length + min (s.params.logDepth - s.log.length) es.length) =
      s.params.logDepth - s.log.length - es.length := by omega
  simp only [logged, List.length_append, List.length_take, htake, List.take_append, List.append_assoc, Bool.or_assoc,
    ← Bool.decide_or, hovf]

/-- R145: register and byte of one half of an entry whose value is in range. -/
theorem txReg_txByte {e : TxEntry} (hv : e.value.toNat ≤ 1023) (half : Half) :
    (txReg e half, txByte e half) = halfWrite e half := by
  obtain ⟨hlo, hhi⟩ := List.cons_eq_cons.1 (packed_eq_sampleBytes hv)
  cases half with
  | lo => rw [txByte, hlo]; rfl
  | hi => rw [txByte, List.head_eq_of_cons_eq hhi]; rfl

/-- R145, R147, R150: `s` after the byte write `w`, answered `r`: its bus record, its log entry, a known answer used up. -/
def written (dev : BitVec 7) (r : BusOutcome) (w : RegAddr × Byte) (s : State) : State :=
  { logged s [entryOf r w] with
    busHistory := s.busHistory ++ [recordOf dev r w]
    busAnswers := s.busAnswers.tail }

theorem writeAndLog_eq_written (dev : BitVec 7) {e : TxEntry} (hv : e.value.toNat ≤ 1023) (half : Half) (s : State) :
    writeAndLog dev (txReg e half) (txByte e half) s = written dev (busOutcome s) (halfWrite e half) s := by
  rw [writeAndLog, logAppend_eq_logged, ← txReg_txByte hv half]
  rfl

/-! ### One step of a transaction -/

section
variable {tp : Bool} {s : State} {snap : OperandRegs} {ext : ExtSource}

theorem step_seq {ph : Phase} (hs : s.script = []) (he : s.engine = .busy (seqWord tp) snap ext ph) :
    step s = exec (seqInstr tp) s := by
  rw [step_nil hs, engineTurn_busy he (decode_seqWord tp)]

section
variable (he : s.engine = .busy (seqWord tp) snap ext .start)
  (hlen : tp = false → snap.wlLen.toNat ≤ s.params.wlDepth)
include he hlen

/-- R144, R153: past SEQ_LIST's length check, the Start step is the transaction's. -/
theorem exec_seq_start : exec (seqInstr tp) s = txStart (seqEntries tp snap) (seqWord tp) snap ext s := by
  cases tp with
  | false =>
    have hfits : ¬ s.params.wlDepth < snap.wlLen.toNat := Nat.not_lt.2 (hlen rfl)
    simp only [seqInstr, Bool.false_eq_true, if_false, exec, execSeqList, he, if_neg hfits]
    rfl
  | true =>
    simp only [seqInstr, if_true, exec, execSeqTp, he]
    rfl

theorem exec_seq_start_failure {f : Failure} (h : validateFrom 0 (seqEntries tp snap) = some f) :
    exec (seqInstr tp) s =
      .next (ended s f.cause ⟨f.addr, 0, BitVec.ofNat 8 f.index⟩ (if tp then 0x31 else 0x30)) := by
  rw [exec_seq_start he hlen, txStart_failure h, finish_seqWord]

theorem exec_seq_start_nil (h : seqEntries tp snap = []) :
    exec (seqInstr tp) s = .next (ended s .ok ⟨0, 0, 0⟩ (if tp then 0x31 else 0x30)) := by
  rw [exec_seq_start he hlen, h, txStart_nil, finish_seqWord]

theorem exec_seq_start_good (h : EntriesOk (seqEntries tp snap)) (hne : seqEntries tp snap ≠ []) :
    exec (seqInstr tp) s = .next (goTo (seqWord tp) snap ext (.seqWrite 0 .lo) s) := by
  rw [exec_seq_start he hlen, txStart_good h hne]

end

section
variable {i : Nat} {half : Half} {e : TxEntry} (he : s.engine = .busy (seqWord tp) snap ext (.seqWrite i half))
  (hi : (seqEntries tp snap)[i]? = some e) (hv : e.value.toNat ≤ 1023)
include he

/-- R145: in the middle of a transaction a SeqWrite step is that of the command's list. -/
theorem exec_seqWrite :
    exec (seqInstr tp) s = txWrite (seqEntries tp snap) (seqWord tp) snap ext i half s := by
  rw [← engineTurn_busy he (decode_seqWord tp), (engineTurn_of_txList (txList_seqWord tp snap)).1 i half he]

include hi hv

theorem exec_seqWrite_ok (hb : busOutcome s = .ok) :
    exec (seqInstr tp) s =
      .next (goTo (seqWord tp) snap ext (afterWrite i half) (written snap.devAddr .ok (halfWrite e half) s)) := by
  rw [exec_seqWrite he, txWrite_ok hi hv hb, writeAndLog_eq_written _ hv, hb]

theorem exec_seqWrite_fail {k : Fin 15} (hb : busOutcome s = .fail k) :
    exec (seqInstr tp) s =
      .next (ended (written snap.devAddr (.fail k) (halfWrite e half) s) .busError
        ⟨(halfWrite e half).1, BitVec.ofNat 4 (k.val + 1), BitVec.ofNat 8 i⟩ (if tp then 0x31 else 0x30)) := by
  rw [exec_seqWrite he, txWrite_fail hi hv hb, writeAndLog_eq_written _ hv, hb, finish_seqWord, ← txReg_txByte hv]
  rfl

end

theorem exec_seqSettle {i : Nat} (he : s.engine = .busy (seqWord tp) snap ext (.seqSettle i))
    (hi : i < (seqEntries tp snap).length) :
    exec (seqInstr tp) s =
      .next (if i + 1 < (seqEntries tp snap).length then
          goTo (seqWord tp) snap ext (.seqWrite (i + 1) .lo) (settle snap.settleMs s)
        else ended (settle snap.settleMs s) .ok ⟨0, 0, 0⟩ (if tp then 0x31 else 0x30)) := by
  rw [← engineTurn_busy he (decode_seqWord tp), (engineTurn_of_txList (txList_seqWord tp snap)).2 i he, txSettle_of_lt hi,
    finish_seqWord]

end

/-! ### The obligations about one step -/

/-- R143, R155: the scan of SEQ_TP's list; both greens take CH_G, so index 3 never fails first. -/
theorem validateFrom_seqTp (snap : OperandRegs) :
    validateFrom 0 (seqEntries true snap) =
      if 1023 < snap.tpeValue.toNat then some ⟨.validationRange, 0, 0⟩
      else if 1023 < snap.chR.toNat then some ⟨.validationRange, 0, 1⟩
      else if 1023 < snap.chG.toNat then some ⟨.validationRange, 0, 2⟩
      else if 1023 < snap.chB.toNat then some ⟨.validationRange, 0, 4⟩
      else none := by
  simp only [seqEntries, if_true]
  iterate 5 rw [validateFrom_cons_of_addr_ne]
  · split_ifs <;> rfl
  all_goals decide

/-- Settles O25: the first entry that is not good decides what validation finds. -/
theorem seqListStart : Obligations.SeqListStart := by
  refine ⟨fun _ hop hbits => endsIllegal_of_reservedBitSet (i := .seqList) hop hbits, fun s snap ext he =>
    ⟨decode_seqWord false, fun hlen => ?_, fun hlen => ⟨fun j e hj hgood => ⟨fun ha => ?_, fun ha hv => ?_⟩,
      exec_seq_start_nil he fun _ => hlen, exec_seq_start_good he fun _ => hlen⟩⟩⟩
  · rw [exec, execSeqList, he]
    exact (if_pos hlen).trans (congrArg _ (finish_seqWord false ..))
  · have hfirst := validateFrom_first (i := 0) hj hgood (.inl ha)
    rw [if_pos ha, ha, Nat.zero_add] at hfirst
    exact exec_seq_start_failure he (fun _ => hlen) hfirst
  · have hfirst := validateFrom_first (i := 0) hj hgood (.inr hv)
    rw [if_neg ha, Nat.zero_add] at hfirst
    exact exec_seq_start_failure he (fun _ => hlen) hfirst

/-- Settles O26, along the four range checks. -/
theorem seqTpStart : Obligations.SeqTpStart := by
  refine ⟨fun _ hop hbits => endsIllegal_of_reservedBitSet (i := .seqTp) hop hbits, fun s snap ext he =>
    ⟨decode_seqWord true, ?_⟩⟩
  have hfail (f : Failure) := exec_seq_start_failure (tp := true) he nofun (f := f)
  have hscan := validateFrom_seqTp snap
  split_ifs at hscan ⊢
  case neg => exact exec_seq_start_good (tp := true) he nofun (validateFrom_eq_none.1 hscan) (List.cons_ne_nil _ _)
  all_goals exact hfail _ hscan

/-- Settles O27: the next phase is `afterWrite`, half by half. -/
theorem seqWriteStep : Obligations.SeqWriteStep := by
  intro tp s snap ext i half e he hi hv _
  refine ⟨fun hb => ?_, fun k hb => exec_seqWrite_fail he hi hv hb⟩
  rw [exec_seqWrite_ok he hi hv hb]
  cases half <;> rfl

/-- Settles O28. -/
theorem seqSettleStep : Obligations.SeqSettleStep := fun _ _ _ _ _ he hi => exec_seqSettle he hi

end Sys2Proof.Claims
end

section
/-! # The run of a transaction (R148 to R152)

The byte writes of a list are numbered by `writeIndex`: those of entry i are writes 2i and 2i + 1. `afterWrites` is the state after
the first `k` writes, all answered OK, and the first `d` settle delays, and `txAt` the same with the engine in a phase. The Start
step leads to `txAt` before pair 0, three steps lead from a pair to the next, and the last settle delay completes; a failing write
ends the command from either half of its pair. -/

namespace Sys2Proof.Claims

open Sys2Proof Sys2Proof.Machine

/-! ### The writes of a list by number -/

/-- R148: the number of one half's write among the writes of its list. -/
def writeIndex (i : Nat) : Half → Nat
  | .lo => 2 * i
  | .hi => 2 * i + 1

theorem exists_eq_writeIndex (k : Nat) : ∃ i half, k = writeIndex i half := by
  obtain h | h := Nat.mod_two_eq_zero_or_one k
  · exact ⟨k / 2, .lo, by rw [writeIndex]; omega⟩
  · exact ⟨k / 2, .hi, by rw [writeIndex]; omega⟩

theorem writeIndex_div_two (i : Nat) (half : Half) : writeIndex i half / 2 = i := by
  cases half <;> rw [writeIndex] <;> omega

theorem length_txWrites (entries : List TxEntry) : (txWrites entries).length = 2 * entries.length := by
  simp [txWrites, List.length_flatMap, Nat.mul_comm]

/-- R148: the write of one half of an entry, in its place. -/
theorem txWrites_writeIndex (entries : List TxEntry) (i : Nat) (half : Half) :
    (txWrites entries)[writeIndex i half]? = entries[i]?.map (halfWrite · half) := by
  induction entries generalizing i with
  | nil => rfl
  | cons e rest ih =>
    cases i with
    | zero => cases half <;> rfl
    | succ i =>
      have hnext : writeIndex (i + 1) half = writeIndex i half + 2 := by cases half <;> rfl
      rw [hnext, List.getElem?_cons_succ, ← ih]
      rfl

/-- R147: known answers of which the first `k` are OK. -/
theorem answers_of_replicate_ok {known rest : List BusOutcome} {k : Nat} (h : known = List.replicate k .ok ++ rest) :
    (∀ j < k, known[j]? = some .ok) ∧ known.drop k = rest := by
  subst h
  refine ⟨fun j hj => ?_, List.drop_left' List.length_replicate⟩
  rw [List.getElem?_append_left (by rwa [List.length_replicate]), List.getElem?_replicate_of_lt hj]

/-! ### The state after some of a transaction's writes -/

section
variable (tp : Bool) (s : State) (snap : OperandRegs) (ext : ExtSource) (ph : Phase) (k d : Nat)

/-- R148, R149, R150: `s` after the first `k` writes of the list, each answered OK, and `d` settle delays. -/
def afterWrites : State :=
  { logged s (((txWrites (seqEntries tp snap)).take k).map (entryOf .ok)) with
    busHistory := s.busHistory ++ ((txWrites (seqEntries tp snap)).take k).map (recordOf snap.devAddr .ok)
    busAnswers := s.busAnswers.drop k
    waitedMs := s.waitedMs + d * snap.settleMs.toNat }

/-- R47: the same with the engine in phase `ph`. -/
def txAt : State := goTo (seqWord tp) snap ext ph (afterWrites tp s snap k d)

theorem txAt_engine : (txAt tp s snap ext ph k d).engine = .busy (seqWord tp) snap ext ph := rfl

/-- R149: one settle delay more. -/
theorem settle_txAt : settle snap.settleMs (txAt tp s snap ext ph k d) = txAt tp s snap ext ph k (d + 1) := by
  simp only [settle, txAt, goTo, afterWrites, Nat.add_mul, Nat.one_mul, Nat.add_assoc]

end

section
variable {tp : Bool} {s : State} {snap : OperandRegs} {ext : ExtSource}

theorem afterWrites_zero (hlog : s.log.length ≤ s.params.logDepth) : afterWrites tp s snap 0 0 = s := by
  simp [afterWrites, logged_nil hlog]

section
variable {k : Nat} {r : BusOutcome} {w : RegAddr × Byte} (d : Nat)

/-- R147: the known answers come in the writes' order. -/
theorem busOutcome_txAt (ph : Phase) (hb : s.busAnswers[k]? = some r) : busOutcome (txAt tp s snap ext ph k d) = r :=
  busOutcome_of_head (by rw [txAt, goTo_busAnswers, afterWrites, List.head?_drop, hb])

/-- R145, R150: write `k` of the list, answered `r`, after the writes before it. -/
theorem written_afterWrites :
    written snap.devAddr r w (afterWrites tp s snap k d) =
      { logged s (((txWrites (seqEntries tp snap)).take k).map (entryOf .ok) ++ [entryOf r w]) with
        busHistory := s.busHistory ++ (((txWrites (seqEntries tp snap)).take k).map (recordOf snap.devAddr .ok) ++
          [recordOf snap.devAddr r w])
        busAnswers := s.busAnswers.drop (k + 1)
        waitedMs := s.waitedMs + d * snap.settleMs.toNat } := by
  rw [← logged_logged, ← List.append_assoc, ← List.tail_drop]
  rfl

/-- R148: a write answered OK makes the first `k` writes the first `k + 1`. -/
theorem written_ok_afterWrites (hw : (txWrites (seqEntries tp snap))[k]? = some w) :
    written snap.devAddr .ok w (afterWrites tp s snap k d) = afterWrites tp s snap (k + 1) d := by
  rw [written_afterWrites, afterWrites, List.take_add_one, hw]
  simp only [Option.toList_some, List.map_append, List.map_cons, List.map_nil]

end

/-! ### The steps -/

section
variable (hs : s.script = [])
include hs

/-- R144: past validation, the Start step of a list that is not empty stands before its first pair. -/
theorem step_txStart (he : s.engine = .busy (seqWord tp) snap ext .start)
    (hlen : tp = false → snap.wlLen.toNat ≤ s.params.wlDepth) (hlog : s.log.length ≤ s.params.logDepth)
    (hgood : ∀ e ∈ seqEntries tp snap, entryGood e) (hne : seqEntries tp snap ≠ []) :
    step s = .next (txAt tp s snap ext (.seqWrite 0 .lo) 0 0) := by
  rw [step_seq hs he, exec_seq_start_good he hlen hgood hne, txAt, afterWrites_zero hlog]

theorem step_txAt (ph : Phase) (k d : Nat) :
    step (txAt tp s snap ext ph k d) = exec (seqInstr tp) (txAt tp s snap ext ph k d) :=
  step_seq (s := txAt tp s snap ext ph k d) hs rfl

/-- R149: the delay after pair `i` stands before the next pair, or completes the command when there is none. -/
theorem step_txAt_seqSettle {i : Nat} (hi : i < (seqEntries tp snap).length) (k : Nat) :
    step (txAt tp s snap ext (.seqSettle i) k i) =
      .next (if i + 1 < (seqEntries tp snap).length then txAt tp s snap ext (.seqWrite (i + 1) .lo) k (i + 1)
        else ended (afterWrites tp s snap k (i + 1)) .ok ⟨0, 0, 0⟩ (if tp then 0x31 else 0x30)) := by
  rw [step_txAt hs, exec_seqSettle (txAt_engine ..) hi, settle_txAt]
  rfl

variable (hgood : ∀ e ∈ seqEntries tp snap, entryGood e)
include hgood

/-- R145: a write answered OK. -/
theorem step_txAt_ok {i : Nat} {half : Half} (hi : i < (seqEntries tp snap).length)
    (hb : s.busAnswers[writeIndex i half]? = some .ok) :
    step (txAt tp s snap ext (.seqWrite i half) (writeIndex i half) i) =
      .next (txAt tp s snap ext (afterWrite i half) (writeIndex i half + 1) i) := by
  have he := List.getElem?_eq_getElem hi
  obtain ⟨-, hv⟩ := hgood _ (List.getElem_mem hi)
  have hw := txWrites_writeIndex (seqEntries tp snap) i half
  rw [he, Option.map_some] at hw
  rw [step_txAt hs, exec_seqWrite_ok (txAt_engine ..) he hv (busOutcome_txAt i _ hb), txAt, txAt,
    ← written_ok_afterWrites i hw]
  rfl

/-- R145, R151: a write answered FAIL ends the command. -/
theorem step_txAt_fail {i : Nat} {half : Half} {c : Fin 15} {w : RegAddr × Byte}
    (hw : (txWrites (seqEntries tp snap))[writeIndex i half]? = some w)
    (hb : s.busAnswers[writeIndex i half]? = some (.fail c)) :
    step (txAt tp s snap ext (.seqWrite i half) (writeIndex i half) i) =
      .next (ended (written snap.devAddr (.fail c) w (afterWrites tp s snap (writeIndex i half) i)) .busError
        ⟨w.1, BitVec.ofNat 4 (c.val + 1), BitVec.ofNat 8 i⟩ (if tp then 0x31 else 0x30)) := by
  rw [txWrites_writeIndex] at hw
  obtain ⟨e, he, rfl⟩ := Option.map_eq_some_iff.1 hw
  obtain ⟨-, hv⟩ := hgood e (List.mem_of_getElem? he)
  rw [step_txAt hs, exec_seqWrite_fail (txAt_engine ..) he hv (busOutcome_txAt i _ hb)]
  rfl

/-! ### The runs -/

/-- R145: the two writes of pair `i`, answered OK. -/
theorem run_pair {i : Nat} (hi : i < (seqEntries tp snap).length)
    (hb : ∀ j < 2 * (i + 1), s.busAnswers[j]? = some .ok) :
    runsTo 2 (txAt tp s snap ext (.seqWrite i .lo) (2 * i) i) (txAt tp s snap ext (.seqSettle i) (2 * (i + 1)) i) :=
  run_add (run_one (step_txAt_ok (half := .lo) hs hgood hi (hb (2 * i) (by omega))))
    (run_one (step_txAt_ok (half := .hi) hs hgood hi (hb (2 * i + 1) (by omega))))

/-- R148, R149: the first `i` pairs, their writes answered OK. -/
theorem run_pairs {i : Nat} (hi : i < (seqEntries tp snap).length) (hb : ∀ j < 2 * i, s.busAnswers[j]? = some .ok) :
    runsTo (3 * i) (txAt tp s snap ext (.seqWrite 0 .lo) 0 0) (txAt tp s snap ext (.seqWrite i .lo) (2 * i) i) := by
  induction i with
  | zero => exact run_zero _
  | succ i ih =>
    have hsettle := step_txAt_seqSettle (ext := ext) hs (Nat.lt_of_succ_lt hi) (2 * (i + 1))
    rw [if_pos hi] at hsettle
    exact run_add (ih (by omega) fun j hj => hb j (by omega)) (run_add (run_pair hs hgood (by omega) hb) (run_one hsettle))

/-- R148: up to one half of pair `i`, the writes before it answered OK. -/
theorem run_toWrite {i : Nat} (half : Half) (hi : i < (seqEntries tp snap).length)
    (hb : ∀ j < writeIndex i half, s.busAnswers[j]? = some .ok) :
    runsTo (writeIndex i half + i) (txAt tp s snap ext (.seqWrite 0 .lo) 0 0)
      (txAt tp s snap ext (.seqWrite i half) (writeIndex i half) i) := by
  cases half with
  | lo =>
    rw [show writeIndex i .lo + i = 3 * i by rw [writeIndex]; omega]
    exact run_pairs hs hgood hi hb
  | hi =>
    rw [show writeIndex i .hi + i = 3 * i + 1 by rw [writeIndex]; omega]
    exact run_add (run_pairs hs hgood hi fun j hj => hb j (Nat.lt_succ_of_lt hj))
      (run_one (step_txAt_ok (half := .lo) hs hgood hi (hb (2 * i) (Nat.lt_succ_self _))))

end

end

/-! ### The obligations about whole transactions -/

/-- Settles O29: an empty list completes in its Start step, and any other with the settle delay after its last pair. -/
theorem transactionWritesItsWholeList : Obligations.TransactionWritesItsWholeList := by
  intro tp s snap ext rest hs he hlen hgood hlog hans
  obtain ⟨hb, hrest⟩ := answers_of_replicate_ok hans
  have hend : runsTo (3 * (seqEntries tp snap).length + 1) s
      (ended (afterWrites tp s snap (2 * (seqEntries tp snap).length) (seqEntries tp snap).length) .ok ⟨0, 0, 0⟩
        (if tp then 0x31 else 0x30)) := by
    cases hn : (seqEntries tp snap).length with
    | zero =>
      have hnil := List.eq_nil_of_length_eq_zero hn
      rw [afterWrites_zero hlog]
      exact run_one ((step_seq hs he).trans (exec_seq_start_nil he hlen hnil))
    | succ m =>
      have hne := List.ne_nil_of_length_eq_add_one hn
      rw [hn] at hb
      have hm : m < (seqEntries tp snap).length := by omega
      have hstart := step_txStart hs he hlen hlog hgood hne
      have hpairs := run_pairs (ext := ext) hs hgood hm fun j hj => hb j (by omega)
      have hsettle := step_txAt_seqSettle (ext := ext) hs hm (2 * (m + 1))
      rw [if_neg (by omega)] at hsettle
      exact (run_succ hstart _).trans (run_add hpairs (run_add (run_pair hs hgood hm hb) (run_one hsettle)))
  rw [afterWrites, hrest, ← length_txWrites, List.take_length] at hend
  exact hend

/-- Settles O30: the run to the failing write, whichever half of its pair it is. -/
theorem transactionAbortsAtTheFirstFailure : Obligations.TransactionAbortsAtTheFirstFailure := by
  intro tp s snap ext rest k c w hs he hlen hgood hlog hw hans
  obtain ⟨i, half, rfl⟩ := exists_eq_writeIndex k
  rw [writeIndex_div_two]
  have hi : i < (seqEntries tp snap).length := by
    rw [txWrites_writeIndex] at hw
    obtain ⟨e, hentry, -⟩ := Option.map_eq_some_iff.1 hw
    exact (List.getElem?_eq_some_iff.1 hentry).1
  obtain ⟨hok, hdrop⟩ := answers_of_replicate_ok hans
  have hfail : s.busAnswers[writeIndex i half]? = some (.fail c) := by rw [← List.head?_drop, hdrop]; rfl
  have hrest : s.busAnswers.drop (writeIndex i half + 1) = rest := by rw [← List.tail_drop, hdrop]; rfl
  have hstart := step_txStart hs he hlen hlog hgood (List.ne_nil_of_length_pos (Nat.zero_lt_of_lt hi))
  have hlast := step_txAt_fail (ext := ext) hs hgood hw hfail
  rw [written_afterWrites, hrest] at hlast
  exact (run_succ hstart _).trans (run_add (run_toWrite hs hgood half hi hok) (run_one hlast))

end Sys2Proof.Claims
end

section
/-! # The control commands (R170, R171)

NOP is a completion and nothing else; LOG_CLEAR empties the log and completes, and an empty log reads 0 at LOG_COUNT and at
every index of LOG_ENTRY. -/

namespace Sys2Proof.Machine

/-! ### The Start steps -/

section
variable {s : State} {cw : Word} {snap : OperandRegs} {ext : ExtSource} (hs : s.engine = .busy cw snap ext .start)
include hs

theorem exec_nop : exec .nop s = .next (finish .ok ⟨0, 0, 0⟩ cw s) := by
  rw [exec, execNop, atStart_start hs, complete_eq]

theorem exec_logClear : exec .logClear s = .next (finish .ok ⟨0, 0, 0⟩ cw (logClear s)) := by
  rw [exec, execLogClear, atStart_start hs, complete_eq]

end

/-! ### Reads of an empty log -/

/-- R38: LOG_COUNT of an empty log. -/
theorem memRead_logCount_of_log_nil {s : State} (h : s.log = []) : memRead s 0x044 = 0 := by
  rw [memRead_of_csrAt rfl, readCsr, logCount, h]
  rfl

/-- R40: no index is below LOG_COUNT when the log is empty. -/
theorem memRead_logEntry_of_log_nil {s : State} (h : s.log = []) : memRead s 0x04C = 0 := by
  rw [memRead_of_csrAt rfl, readCsr]
  exact logEntryRead_of_beyond (h ▸ Nat.zero_le _)

end Sys2Proof.Machine

namespace Sys2Proof.Claims

open Sys2Proof Sys2Proof.Machine

/-! ### NOP and LOG_CLEAR -/

/-- Settles O11: the completion is the whole step. -/
theorem nopOnlyCompletes : Obligations.NopOnlyCompletes := by
  refine ⟨fun s snap ext hs => ?_, fun _ hop hbits => endsIllegal_of_reservedBitSet (i := .nop) hop hbits⟩
  have hd : decode 0x00000000#32 = .ok .nop := decode_of_toNat rfl
  exact ⟨hd, by rw [exec_nop hs, finish_eq_ended hd]; rfl⟩

/-- Settles O12: the reads after the command are those of an empty log, whatever LOG_SEL holds. -/
theorem logClearEmptiesTheLog : Obligations.LogClearEmptiesTheLog := by
  refine ⟨fun s snap ext hs => ?_, fun _ hop hbits => endsIllegal_of_reservedBitSet (i := .logClear) hop hbits⟩
  have hd : decode 0x00000001#32 = .ok .logClear := decode_of_toNat rfl
  refine ⟨hd, _, rfl, ?_, memRead_logCount_of_log_nil rfl, fun _ => memRead_logEntry_of_log_nil rfl⟩
  rw [exec_logClear hs, finish_eq_ended hd]
  rfl

end Sys2Proof.Claims
end

section
/-! # How a command ends (R182 to R189, R199)

An engine turn is a move (`step_engineNext_move`): it completes the command, or leads into a later phase of it with `turnsLeft`
smaller, so a command left to run ends within the turns its Start phase allows (`run_to_idle`, `turnsLeft_le_turnBound`). Only a
completing Start step has a cause other than OK and BUS_ERROR (`Move.precise`). -/

namespace Sys2Proof.Machine

/-! ### The turn of a Busy engine, as a step -/

/-- When the coming turn is a Busy engine's, a step that leads on is a move. -/
theorem step_engineNext_move {s t : State} {cw : Word} {snap : OperandRegs} {ext : ExtSource} {ph : Phase} {rest : List Turn}
    (hn : EngineNext s rest) (hs : s.engine = .busy cw snap ext ph) (h : step s = .next t) :
    Move { s with script := rest } cw snap ext ph t := by
  rw [step_engineNext hn] at h
  exact engineTurn_move hs h

/-- R184: such a step completes the command and counts it, or leaves the engine Busy and the count as it was. -/
theorem step_engineNext_doneCnt {s t : State} {rest : List Turn} (hn : EngineNext s rest) (hbusy : s.engine ≠ .idle)
    (h : step s = .next t) :
    (t.engine = .idle ∧ t.doneCnt = s.doneCnt + 1) ∨ (t.engine ≠ .idle ∧ t.doneCnt = s.doneCnt) := by
  cases hs : s.engine with
  | idle => exact absurd hs hbusy
  | busy cw snap ext ph =>
    obtain ⟨hidle, hcnt, -⟩ | ⟨⟨ph', hbusy'⟩, hcnt, -⟩ := (step_engineNext_move hn hs h).completion
    · exact .inl ⟨hidle, hcnt⟩
    · exact .inr ⟨by rw [hbusy']; nofun, hcnt⟩

/-! ### Precise errors -/

section
variable {s t : State} {cw : Word} {snap : OperandRegs} {ext : ExtSource} {ph : Phase}

/-- R184, R185: a move that ends a command with a cause other than OK and BUS_ERROR is a Start step that only completes it. -/
theorem Move.precise (m : Move s cw snap ext ph t) (hidle : t.engine = .idle) (hok : t.cause ≠ .ok)
    (hbus : t.cause ≠ .busError) : ph = .start ∧ t = finish t.cause t.errInfo cw s := by
  cases m with
  | quiet => exact ⟨rfl, rfl⟩
  | logClear | dout | streamEmpty | emitLast | settleLast => exact absurd rfl hok
  | writeFail => exact absurd rfl hbus
  | streamEnter | emitNext | txEnter | writeOk | settleNext => cases hidle

/-- R47: no move leads into the Start phase. -/
theorem Move.engine_ne_start (m : Move s cw snap ext ph t) (cw' : Word) (snap' : OperandRegs) (ext' : ExtSource) :
    t.engine ≠ .busy cw' snap' ext' .start := by
  cases m with
  | writeOk _ _ i half => cases half <;> nofun
  | _ => nofun

end

/-! ### The causes of a step that ends a command (R182) -/

section
variable {entries : List TxEntry} {cw : Word} {snap : OperandRegs} {ext : ExtSource} {s t : State} (hidle : t.engine = .idle)
include hidle

/-- R143, R144: the Start step of a transaction ends it as an empty one, or with the cause its validation found. -/
theorem txStart_cause (h : txStart entries cw snap ext s = .next t) :
    t.cause = .ok ∨ ∃ f, validateFrom 0 entries = some f ∧ t.cause = f.cause := by
  obtain ⟨f, hf, e⟩ | ⟨-, e⟩ | ⟨-, -, e⟩ := txStart_cases entries cw snap ext s
  all_goals cases e.symm.trans h
  · exact .inr ⟨f, hf, rfl⟩
  · exact .inl rfl
  · cases hidle

/-- R145: a SeqWrite step ends a transaction only when its byte write fails. -/
theorem txWrite_cause {i : Nat} {half : Half} (h : txWrite entries cw snap ext i half s = .next t) : t.cause = .busError := by
  obtain ⟨e, -, -, ⟨-, rfl⟩ | ⟨k, -, rfl⟩⟩ := txWrite_next h
  · cases hidle
  · rfl

/-- R149: a SeqSettle step ends a transaction as a complete one. -/
theorem txSettle_cause {i : Nat} (h : txSettle entries cw snap ext i s = .next t) : t.cause = .ok := by
  obtain ⟨-, rfl⟩ | ⟨-, rfl⟩ := txSettle_next h
  · cases hidle
  · rfl

/-- R127: the Start step of STREAM ends it as an empty one, or with one of the two causes of its validation. -/
theorem streamStart_cause (h : streamStart cw snap ext s = .next t) :
    t.cause = .ok ∨ t.cause = .validationRange ∨ t.cause = .validationDim := by
  obtain ⟨-, e⟩ | ⟨-, -, e⟩ | ⟨-, -, -, e⟩ | ⟨-, -, -, -, e⟩ := streamStart_cases cw snap ext s
  all_goals cases e.symm.trans h
  · exact .inr (.inr rfl)
  · exact .inr (.inl rfl)
  · exact .inl rfl
  · cases hidle

/-- R128: a StreamEmit step ends the command as a complete one. -/
theorem streamEmitStep_cause {x y : Nat} (h : streamEmitStep cw snap ext x y s = .next t) : t.cause = .ok := by
  obtain ⟨-, ⟨-, rfl⟩ | ⟨-, rfl⟩⟩ := streamEmitStep_next h
  · rfl
  · cases hidle

end

/-! ### A CMD write to a Busy engine -/

/-- R188: a Busy engine's CMD write is lost, with REJ = 1. -/
theorem issue_busy {s : State} (h : s.engine ≠ .idle) (cw : Word) : issue cw s = { s with rej := true } := by
  rw [issue, if_pos ((isBusy_iff _).2 h)]

end Sys2Proof.Machine

namespace Sys2Proof.Claims

open Sys2Proof Sys2Proof.Machine

/-! ### The bound of a command (R189) -/

theorem turnBound_pos (cw : Word) (snap : OperandRegs) : 0 < turnBound cw snap := by
  unfold turnBound
  split_ifs <;> omega

/-- R189: at its Start phase a command's turns are within its bound; SEQ_LIST's list has at most WL_LEN entries. -/
theorem turnsLeft_le_turnBound {s : State} {cw : Word} {snap : OperandRegs} {ext : ExtSource}
    (hs : s.engine = .busy cw snap ext .start) : turnsLeft s ≤ turnBound cw snap := by
  unfold turnsLeft
  rw [hs]
  dsimp only
  split
  next hd =>
    obtain rfl := decode_eq_ok_iff.1 hd
    exact le_rfl
  next hd =>
    obtain rfl := decode_eq_ok_iff.1 hd
    have hlen : (seqListEntries snap).length ≤ snap.wlLen.toNat := List.length_take_le _ _
    have hbound : turnBound (encode .seqList) snap = 3 * snap.wlLen.toNat + 1 := rfl
    omega
  next hd =>
    obtain rfl := decode_eq_ok_iff.1 hd
    exact le_rfl
  next => exact turnBound_pos cw snap

/-- R189: from a Busy state of the invariant, a command left to run completes once, within the turns it has left. -/
theorem run_to_idle {s : State} (h : Invariant s) (hs : s.script = []) (hbusy : s.engine ≠ .idle) :
    ∃ k t, 1 ≤ k ∧ k ≤ turnsLeft s ∧ runsTo k s t ∧ t.engine = .idle ∧ t.doneCnt = s.doneCnt + 1 := by
  induction hn : turnsLeft s using Nat.strong_induction_on generalizing s with
  | _ n ih =>
    have hnext : EngineNext s [] := .inl ⟨hs, rfl⟩
    obtain ⟨u, hstep, hu, hlt⟩ := engineNext_progress h hnext hbusy
    obtain ⟨hidle, hcnt⟩ | ⟨hgo, hcnt⟩ := step_engineNext_doneCnt hnext hbusy hstep
    · exact ⟨1, u, le_rfl, by omega, run_one hstep, hidle, hcnt⟩
    · obtain ⟨k, t, -, hk, hrun, hidle, hend⟩ :=
        ih (turnsLeft u) (hn ▸ hlt) (stepKeepsTheInvariant s u h hstep) hu hgo rfl
      exact ⟨k + 1, t, by omega, by omega, (run_succ hstep k).trans hrun, hidle, hcnt ▸ hend⟩

/-- Settles O49: the run of `run_to_idle`, from the Start phase. -/
theorem everyCommandEndsWithinItsBound : Obligations.EveryCommandEndsWithinItsBound := by
  intro s cw snap ext h hs he
  obtain ⟨k, t, h1, hk, hend⟩ := run_to_idle h hs (by rw [he]; nofun)
  exact ⟨k, t, h1, hk.trans (turnsLeft_le_turnBound he), hend⟩

/-- Settles O50: the engine leads on from a state of the invariant, and each move makes `turnsLeft` smaller. -/
theorem everyEngineTurnMakesProgress : Obligations.EveryEngineTurnMakesProgress :=
  fun _ _ => engineNext_progress

/-- Settles O58: the step is a move, so `Move.precise` and `Move.engine_ne_start` speak of it. -/
theorem errorsArePrecise : Obligations.ErrorsArePrecise := by
  intro s t cw snap ext ph rest hn hs h
  have m := step_engineNext_move hn hs h
  refine ⟨fun hidle hok hbus => ?_, m.engine_ne_start⟩
  obtain ⟨hph, ht⟩ := m.precise hidle hok hbus
  exact ⟨hph, by rw [← opcodeOf_eq_ofNat]; exact ht⟩

/-! ### The causes of each command (R182) -/

/-- R143, R155: no register of the map is 0xFFFF, so SEQ_TP's list fails validation only by a value. -/
theorem validateFrom_seqTp_cause {snap : OperandRegs} {f : Failure} (h : validateFrom 0 (seqTpEntries snap) = some f) :
    f.cause = .validationRange := by
  have hscan := (validateFrom_seqTp snap).symm.trans h
  split_ifs at hscan <;> cases hscan <;> rfl

section
variable {s t : State} (hidle : t.engine = .idle)
include hidle

theorem execStream_cause (h : execStream s = .next t) : t.cause ∈ causesOf .stream := by
  unfold execStream at h
  split at h
  next => simpa [causesOf] using streamStart_cause hidle h
  next => simp [causesOf, streamEmitStep_cause hidle h]
  all_goals cases h

theorem execSeqList_cause (h : execSeqList s = .next t) : t.cause ∈ causesOf .seqList := by
  unfold execSeqList at h
  split at h
  next =>
    split at h
    next => cases h; simp [causesOf]
    next =>
      obtain hok | ⟨f, hf, hc⟩ := txStart_cause hidle h
      · simp [causesOf, hok]
      · obtain ⟨hpair, -⟩ | ⟨hrange, -⟩ := validateFrom_some hf
        · simp [causesOf, hc, hpair]
        · simp [causesOf, hc, hrange]
  next => simp [causesOf, txWrite_cause hidle h]
  next => simp [causesOf, txSettle_cause hidle h]
  all_goals cases h

theorem execSeqTp_cause (h : execSeqTp s = .next t) : t.cause ∈ causesOf .seqTp := by
  unfold execSeqTp at h
  split at h
  next =>
    obtain hok | ⟨f, hf, hc⟩ := txStart_cause hidle h
    · simp [causesOf, hok]
    · simp [causesOf, hc, validateFrom_seqTp_cause hf]
  next => simp [causesOf, txWrite_cause hidle h]
  next => simp [causesOf, txSettle_cause hidle h]
  all_goals cases h

end

/-- Settles O59, command by command: a command of one step ends in it, and STREAM, SEQ_LIST and SEQ_TP by their phases. -/
theorem eachCommandEndsWithItsCauses : Obligations.EachCommandEndsWithItsCauses := by
  intro i s t _ h hidle
  cases i with
  | nop | logClear | unpack | rescale | route =>
    obtain ⟨_, _, _, -, h⟩ := atStart_next h
    cases h
    exact List.mem_singleton_self _
  | pack | pixel =>
    obtain ⟨_, _, _, -, h⟩ := atStart_next h
    split at h <;> cases h <;> simp [causesOf]
  | stream => exact execStream_cause hidle h
  | seqList => exact execSeqList_cause hidle h
  | seqTp => exact execSeqTp_cause hidle h

/-! ### Between commands (R188, R199) -/

/-- Settles O9: either form of an engine turn is that of an Idle engine. -/
theorem idleEngineKeepsAllState : Obligations.IdleEngineKeepsAllState := by
  intro s he
  refine ⟨fun hs => ?_, fun rest hs => ?_⟩
  · rw [step_nil hs, engineTurn_idle he]
  · rw [step_engineNext (.inr hs)]
    exact engineTurn_idle he

/-- Settles O31: an Idle engine accepts the word, and a Busy one only sets REJ. -/
theorem cmdWriteIsAcceptedOrRejected : Obligations.CmdWriteIsAcceptedOrRejected := by
  intro s v rest hs
  refine ⟨fun hidle => ⟨_, _, step_cmdWrite_idle hs hidle⟩, fun hbusy => ?_⟩
  rw [step_hostWrite hs rfl (by decide), memWrite_of_csrAt rfl, writeCsr, issue_busy (s := { s with script := rest }) hbusy]

end Sys2Proof.Claims
end

section
/-! # The reset step (R211)

The reset turn puts `resetBlock`'s fields in place whatever the engine was doing. The instance's two reset parameters have one
value each (R7), so the operand CSRs go to R51's values in every valid instance. -/

namespace Sys2Proof.Machine

/-- R6, R7: a valid instance's two reset parameters. -/
theorem resetParams_of_wf {p : Params} (hwf : p.wf = true) : p.resetSettleMs = 100 ∧ p.resetDevAddr = 0x10 := by
  simp only [Params.wf, Bool.and_eq_true, beq_iff_eq] at hwf
  obtain ⟨⟨-, hms⟩, haddr⟩ := hwf
  exact ⟨hms, haddr⟩

/-- R51: in a valid instance the operand CSRs' reset values depend on WL_DEPTH alone. -/
theorem operandRegs_reset_of_wf {p : Params} (hwf : p.wf = true) :
    OperandRegs.reset p =
      { src := 0, chR := 0, chG := 0, chB := 0, tpeValue := 1, frameW := 0, frameH := 0, rowY0 := 0, rowY1 := 0,
        settleMs := 100, devAddr := 0x10, wlLen := 0, wl := List.replicate p.wlDepth ⟨0, 0⟩ } := by
  obtain ⟨hms, haddr⟩ := resetParams_of_wf hwf
  rw [OperandRegs.reset, hms, haddr]

/-- R211: the reset turn takes no notice of the engine. -/
theorem step_reset {s : State} {rest : List Turn} (hs : s.script = .reset :: rest) :
    step s = .next (resetBlock { s with script := rest }) :=
  step_cons hs

end Sys2Proof.Machine

namespace Sys2Proof.Claims

open Sys2Proof Sys2Proof.Machine

/-- Settles O45: `resetBlock` leaves the outside agents' fields as they were, and its operand CSRs are R51's in a valid
instance. -/
theorem resetStep : Obligations.ResetStep := by
  intro s rest hwf hs
  refine ⟨s.busAnswers, s.extTable, s.accepted, s.hostReads, s.waitedMs, ?_⟩
  rw [step_reset hs, resetBlock, operandRegs_reset_of_wf hwf]
  rfl

end Sys2Proof.Claims
end
